-- ==== Sys2Proof/Word.lean ====
section
/-! DEFINITION. The two data widths of the machine (R8, R9): the byte and the 16-bit word. -/

namespace Sys2Proof

/-- `u8` of R9. -/
abbrev Byte := BitVec 8

/-- `u16` of R9: a register's contents, and an address of the one address space (R50). -/
abbrev Word := BitVec 16

end Sys2Proof
end

