-- ==== Sys2Proof/Machine/Bits.lean ====
section
/-! DEFINITION. Byte order, bit slices and extensions (R9, R10, R56). -/

namespace Sys2Proof

/-- `lo8(v) = v[7:0]` (R10). -/
def lo8 (v : Word) : Byte := v.extractLsb' 0 8

/-- `hi8(v) = v[15:8]` (R10). -/
def hi8 (v : Word) : Byte := v.extractLsb' 8 8

/-- `hi ++ lo`, the word `hi * 256 + lo` (R10). -/
def joinBytes (hi lo : Byte) : Word := hi ++ lo

/-- `zext_16` (R10). -/
def zext16 (b : Byte) : Word := b.setWidth 16

/-- `sext_16` (R10, R79). -/
def sext16 (b : Byte) : Word := b.signExtend 16

end Sys2Proof
end

