-- ==== Sys2Proof/Config.lean ====
section
/-! DEFINITION. What an implementation fixes: the three named parameters of R8 that the spec leaves open. -/

namespace Sys2Proof

/-- The open parameters of R8 (decisions D1 and D3 of spec/92_eei_decisions.md).
The spec calls each of them an argument of the model, so every claim can range over all their values: the state carries
the build's parameters in a field that no step and no host operation changes (log entry 1). -/
structure Config where
  /-- `RESET_IP`: the address reset puts into ip. -/
  resetIp : Word
  /-- `RESET_CS`: the value reset puts into cs. -/
  resetCs : Word
  /-- `MOV_LOAD_FORMS`: whether 0x8A and 0x8B are admitted opcodes (R86). -/
  movLoadForms : Bool
  deriving DecidableEq, Repr

end Sys2Proof
end

