-- ==== Sys2Proof/Machine/Defaults.lean ====
section
/-! DEFINITION. The spec's default values of the open parameters (R8, decisions D1 and D3). -/

namespace Sys2Proof.Machine

/-- `RESET_IP = 0x0000`, `RESET_CS = 0xFFFF`, `MOV_LOAD_FORMS = false` (R8, R86, R180). -/
def defaultConfig : Config := { resetIp := 0x0000, resetCs := 0xFFFF, movLoadForms := false }

end Sys2Proof.Machine
end

