-- ==== Sys2Proof/Syntax.lean ====
section
/-! DEFINITION. The instructions, one constructor per row of spec/opcode_table.json, and their operands. -/

namespace Sys2Proof

/-- The byte registers, in the order of the ModRM register field (R24, w = 0). -/
inductive Reg8 where
  | al | cl | dl | bl | ah | ch | dh | bh
  deriving DecidableEq, Repr

/-- The word registers, in the order of the ModRM register field (R24, w = 1). -/
inductive Reg16 where
  | ax | cx | dx | bx | sp | bp | si | di
  deriving DecidableEq, Repr

/-- The base and index combinations, in the order of the rm field (R80). -/
inductive Base where
  | bxSi | bxDi | bpSi | bpDi | si | di | bp | bx
  deriving DecidableEq, Repr

/-- A memory operand as its encoding gives it (R78, R82, R83): one EA has several encodings (R91), so the form of the
displacement is kept and the encoder can give the same bytes back. -/
inductive MemOperand where
  /-- mod = 0b00, rm ≠ 0b110: no displacement. -/
  | base (b : Base)
  /-- mod = 0b01: an 8-bit signed displacement. -/
  | disp8 (b : Base) (d : Byte)
  /-- mod = 0b10: a 16-bit displacement. -/
  | disp16 (b : Base) (d : Word)
  /-- mod = 0b00, rm = 0b110: the direct address. -/
  | direct (a : Word)
  deriving DecidableEq, Repr

/-- The r/m operand at byte width (R77, R78). -/
inductive Rm8 where
  | reg (r : Reg8)
  | mem (m : MemOperand)
  deriving DecidableEq, Repr

/-- The r/m operand at word width (R77, R78). -/
inductive Rm16 where
  | reg (r : Reg16)
  | mem (m : MemOperand)
  deriving DecidableEq, Repr

/-- One constructor per row of the opcode table; operands stand destination first (R93). -/
inductive Instr where
  /-- 0x88, R120. -/
  | movRm8R8 (dst : Rm8) (src : Reg8)
  /-- 0x89, R121. -/
  | movRm16R16 (dst : Rm16) (src : Reg16)
  /-- 0x8A, R122: only in a build with `MOV_LOAD_FORMS` (R86). -/
  | movR8Rm8 (dst : Reg8) (src : Rm8)
  /-- 0x8B, R123: only in a build with `MOV_LOAD_FORMS` (R86). -/
  | movR16Rm16 (dst : Reg16) (src : Rm16)
  /-- The table's last row: an opcode byte outside the admitted set (R87, R151). -/
  | unimplementedOpcode (op : Byte)
  deriving DecidableEq, Repr

end Sys2Proof
end

