-- ==== Sys2Proof/Machine/State.lean ====
section
/-! DEFINITION. The state of one CORE instance (R20), its errors (R150) and its state after reset (R180). -/

namespace Sys2Proof.Machine

/-! ### Register selectors of the host (R35) -/

/-- The ByteReg family: the eight byte views and the two halves of flags (R35). -/
inductive ByteSel where
  | reg (r : Reg8)
  | flagsL
  | flagsH
  deriving DecidableEq, Repr

/-- The WordReg family: the eight word registers and ip (R35). -/
inductive WordSel where
  | reg (r : Reg16)
  | ip
  deriving DecidableEq, Repr

/-- The SegReg family (R34, R35). -/
inductive SegSel where
  | cs | ds | ss | es
  deriving DecidableEq, Repr

/-- The tagged selector: three disjoint families (R35). -/
inductive Selector where
  | byte (r : ByteSel)
  | word (r : WordSel)
  | seg (r : SegSel)
  deriving DecidableEq, Repr

/-! ### Errors (R150) -/

/-- The three error kinds of R150 with their records.
No step ends in one of them: an error is reported to the caller of the engine and leaves a next state (R151, R155,
R159; log entry 4). -/
inductive Fault where
  /-- Raised by a step at the opcode fetch (R151), by the meaning of the table's last row, which writes it into
  `State.report` and answers a next state. A claim about a run must look at the report: unsafe otherwise (log entry 4). -/
  | unimplementedOpcode (opcode : Byte) (addr : Word)
  /-- Raised by a host accessor whose selector is outside its families (R36, R152); the call fails and no state changes.
  Safe: it is the error the spec gives. -/
  | invalidRegister (selector : Selector)
  /-- Raised by nothing: every EA path is given (R88, R153). The constructor keeps the taxonomy of R150. Safe. -/
  | addressingNotImplemented
  deriving DecidableEq, Repr

/-- What the model leaves without a meaning. -/
inductive Refusal where
  /-- Raised by an arm of `exec` whose instruction has no meaning yet; no arm does. Safe: the machine stops. -/
  | notModelled (mnemonic : String)
  deriving DecidableEq, Repr

/-! ### The parts of the state -/

/-- A general-purpose register, stored as its two bytes (R20, R21). -/
structure Gpr where
  hi : Byte
  lo : Byte
  deriving DecidableEq, Repr

/-- Memory as the list of its bytes that are not 0, by strictly rising address; an unlisted address reads as
`unlistedByte` (R50, R69; log entry 9). -/
abbrev Memory := List Host.Cell

/-- The engine's two states (R39). -/
inductive Mode where
  | idle
  | running
  deriving DecidableEq, Repr

/-- What the engine reports to its caller (R104, R106, R108): the cycle units spent since the call began and the error,
if one was raised. The model's own field: the spec returns these values (log entry 5). -/
structure Report where
  total : Nat
  error : Option Fault
  deriving DecidableEq, Repr

/-- The report when a call begins, and after reset. -/
abbrev Report.empty : Report := { total := 0, error := none }

/-- The state record of R20, one field per row, and after it the model's own two fields: the build's parameters, which
nothing writes (log entry 1), and the engine's report to its caller (log entry 5). -/
structure State where
  gprA : Gpr
  gprC : Gpr
  gprD : Gpr
  gprB : Gpr
  sp : Word
  bp : Word
  si : Word
  di : Word
  ip : Word
  flags : Word
  cs : Word
  ds : Word
  ss : Word
  es : Word
  mem : Memory
  mode : Mode
  budget : Nat
  config : Config
  report : Report
  deriving DecidableEq, Repr

/-- The state after `reset()` in the build with parameters `c`: every row of R20 at the value R180 gives it. Construction
gives the same state (R182). -/
def State.resetWith (c : Config) : State where
  gprA := { hi := 0x00, lo := 0x00 }
  gprC := { hi := 0x00, lo := 0x00 }
  gprD := { hi := 0x00, lo := 0x00 }
  gprB := { hi := 0x00, lo := 0x00 }
  sp := 0x0000
  bp := 0x0000
  si := 0x0000
  di := 0x0000
  ip := c.resetIp
  flags := 0x0000
  cs := c.resetCs
  ds := 0x0000
  ss := 0x0000
  es := 0x0000
  mem := []
  mode := .idle
  budget := 0
  config := c
  report := .empty

/-- The state after reset in the spec's default build (R8, R41, R180). -/
def State.reset : State := State.resetWith defaultConfig

end Sys2Proof.Machine
end

