-- ==== Sys2Proof/Machine/Ops.lean ====
section
/-! DEFINITION. The named operations over memory and registers, and raising an error. -/

namespace Sys2Proof.Machine

/-- The three outcomes of a step of this machine. -/
abbrev Outcome := Host.Outcome State Fault Refusal

/-! ### Memory (R50 to R59) -/

/-- The size of the one address space (R50). -/
def memorySize : Nat := 65536

/-- What an address holds that the list does not name: memory is created zero-filled and reset re-zeroes it (R69). -/
def unlistedByte : Byte := 0x00

/-- The byte at an address. -/
def Memory.lookup : Memory → Nat → Byte
  | [], _ => unlistedByte
  | c :: rest, a => if c.1 = a then c.2 else Memory.lookup rest a

/-- The list without the byte at an address. -/
def Memory.erase : Memory → Nat → Memory
  | [], _ => []
  | c :: rest, a => if c.1 = a then Memory.erase rest a else c :: Memory.erase rest a

/-- A byte put in its place by address. -/
def Memory.insert (a : Nat) (b : Byte) : Memory → Memory
  | [] => [(a, b)]
  | c :: rest => if a < c.1 then (a, b) :: c :: rest else c :: Memory.insert a b rest

/-- The list after a byte is written; writing what an unlisted address reads as removes the entry. -/
def Memory.write (m : Memory) (a : Nat) (b : Byte) : Memory :=
  if b = unlistedByte then m.erase a else (m.erase a).insert a b

/-- The entries rise strictly from `lo`, stay inside the address space, and none holds what an unlisted address reads
as. -/
def Memory.wfFrom : Nat → Memory → Bool
  | _, [] => true
  | lo, c :: rest =>
    decide (lo ≤ c.1) && decide (c.1 < memorySize) && (c.2 != unlistedByte) && Memory.wfFrom (c.1 + 1) rest

/-- The canonical form of memory: equal memories are equal lists (log entry 9). -/
def Memory.wf (m : Memory) : Bool := Memory.wfFrom 0 m

/-- `MemRead(addr, 1)` (R52). An address is a `u16`, so it is taken modulo 65536 already (R51). -/
def readByte (a : Word) (s : State) : Byte := s.mem.lookup a.toNat

/-- `MemWrite(addr, 1, b)` (R53). -/
def storeByte (a : Word) (b : Byte) (s : State) : State := { s with mem := s.mem.write a.toNat b }

/-- `MemRead(addr, 2)`: little-endian, the high byte's address wraps (R54). -/
def readWord (a : Word) (s : State) : Word := joinBytes (readByte (a + 1) s) (readByte a s)

/-- `MemWrite(addr, 2, v)`: the low byte at addr, then the high byte at addr + 1, which wraps (R55). -/
def storeWord (a : Word) (v : Word) (s : State) : State := storeByte (a + 1) (hi8 v) (storeByte a (lo8 v) s)

/-! ### Registers (R21 to R26) -/

/-- The word view of a general-purpose register (R21). -/
def wordOfGpr (g : Gpr) : Word := joinBytes g.hi g.lo

/-- Writing the word view writes both bytes (R22). -/
def gprOfWord (v : Word) : Gpr := { hi := hi8 v, lo := lo8 v }

/-- `reg8[n]` (R11, R24). -/
def readReg8 : Reg8 → State → Byte
  | .al, s => s.gprA.lo
  | .cl, s => s.gprC.lo
  | .dl, s => s.gprD.lo
  | .bl, s => s.gprB.lo
  | .ah, s => s.gprA.hi
  | .ch, s => s.gprC.hi
  | .dh, s => s.gprD.hi
  | .bh, s => s.gprB.hi

/-- `reg8[n] <- b`: the other half is unchanged (R22). -/
def writeReg8 : Reg8 → Byte → State → State
  | .al, b, s => { s with gprA := { s.gprA with lo := b } }
  | .cl, b, s => { s with gprC := { s.gprC with lo := b } }
  | .dl, b, s => { s with gprD := { s.gprD with lo := b } }
  | .bl, b, s => { s with gprB := { s.gprB with lo := b } }
  | .ah, b, s => { s with gprA := { s.gprA with hi := b } }
  | .ch, b, s => { s with gprC := { s.gprC with hi := b } }
  | .dh, b, s => { s with gprD := { s.gprD with hi := b } }
  | .bh, b, s => { s with gprB := { s.gprB with hi := b } }

/-- `reg16[n]` (R11, R24). -/
def readReg16 : Reg16 → State → Word
  | .ax, s => wordOfGpr s.gprA
  | .cx, s => wordOfGpr s.gprC
  | .dx, s => wordOfGpr s.gprD
  | .bx, s => wordOfGpr s.gprB
  | .sp, s => s.sp
  | .bp, s => s.bp
  | .si, s => s.si
  | .di, s => s.di

/-- `reg16[n] <- v` (R22, R25). -/
def writeReg16 : Reg16 → Word → State → State
  | .ax, v, s => { s with gprA := gprOfWord v }
  | .cx, v, s => { s with gprC := gprOfWord v }
  | .dx, v, s => { s with gprD := gprOfWord v }
  | .bx, v, s => { s with gprB := gprOfWord v }
  | .sp, v, s => { s with sp := v }
  | .bp, v, s => { s with bp := v }
  | .si, v, s => { s with si := v }
  | .di, v, s => { s with di := v }

/-- A segment register: opaque storage (R34). -/
def readSeg : SegSel → State → Word
  | .cs, s => s.cs
  | .ds, s => s.ds
  | .ss, s => s.ss
  | .es, s => s.es

def writeSeg : SegSel → Word → State → State
  | .cs, v, s => { s with cs := v }
  | .ds, v, s => { s with ds := v }
  | .ss, v, s => { s with ss := v }
  | .es, v, s => { s with es := v }

def setIp (v : Word) (s : State) : State := { s with ip := v }

/-! ### Errors

There is no trap entry and no return from one: no error saves state, changes a privilege mode, masks anything or runs a
handler (R157 to R160). What raising an error does is the following, and the host resumes at the current ip (R159). -/

/-- The effect of an error raised by a step (R106, R155): the engine zeroes the budget, goes Idle and reports the error.
No register other than ip, no flag and no memory byte changes; ip was advanced by the fetch. -/
def raiseError (e : Fault) (s : State) : State :=
  { s with budget := 0, mode := .idle, report := { s.report with error := some e } }

/-- The cycle accounting at the end of a step that consumed `k` bytes (R100, R104, R108): the budget saturates at 0, and
the engine stays Running only if it was and budget is left (R110). -/
def chargeCycles (k : Nat) (s : State) : State :=
  { s with
    budget := s.budget - k
    mode := if s.mode = .running ∧ 0 < s.budget - k then .running else .idle
    report := { s.report with total := s.report.total + k } }

end Sys2Proof.Machine
end

