-- ==== Sys2Proof/Machine/Illegal.lean ====
section
/-! DEFINITION. The table's last row: an opcode byte outside the admitted set (R87, R151). -/

namespace Sys2Proof.Machine

/-- UnimplementedOpcode (R151): the error records the byte and the address it was fetched from. The fetch of that one
byte has moved ip past it, so the address is one below ip. The error's effect is a next state: it is "fatal to the
current step, not to the machine", and the host may go on from there (R155, R159; log entry 4). -/
def execUnimplementedOpcode (op : Byte) (s : State) : Outcome :=
  .next (raiseError (.unimplementedOpcode op (s.ip - 1)) s)

end Sys2Proof.Machine
end

