-- ==== Sys2Proof/Machine/Flags.lean ====
section
/-! DEFINITION. The flags register and the flags unit (R29 to R33, R130 to R136). -/

namespace Sys2Proof.Machine

/-! ### The register (R29 to R31) -/

/-- The nine flags that carry meaning (R29). -/
inductive Flag where
  | carry | parity | auxCarry | zero | sign | trap | interruptEnable | direction | overflow
  deriving DecidableEq, Repr

/-- The bit position of a flag (R29; the layout is the 8086's, log entry 10). -/
def flagPos : Flag → Nat
  | .carry => 0
  | .parity => 2
  | .auxCarry => 4
  | .zero => 6
  | .sign => 7
  | .trap => 8
  | .interruptEnable => 9
  | .direction => 10
  | .overflow => 11

/-- `FLAGS_MASK`: the meaningful bits (R29). -/
def flagsMask : Word := 0x0FD5

/-- The reserved bits 1, 3, 5 and 12 to 15 read 0 (R30). -/
def reservedFlagsZero (v : Word) : Bool := v &&& ~~~flagsMask == 0

/-- FLAGS_L (R31). -/
def readFlagsL (s : State) : Byte := lo8 s.flags

/-- FLAGS_H (R31). -/
def readFlagsH (s : State) : Byte := hi8 s.flags

/-- A write through FLAGS_L discards the reserved bits (R31). -/
def writeFlagsL (b : Byte) (s : State) : State :=
  { s with flags := (s.flags &&& 0xFF00) ||| (zext16 b &&& 0x00D5) }

/-- A write through FLAGS_H discards the reserved bits (R31). -/
def writeFlagsH (b : Byte) (s : State) : State :=
  { s with flags := (s.flags &&& 0x00FF) ||| ((zext16 b <<< 8) &&& 0x0F00) }

/-- A flag's value. -/
def getFlag (f : Flag) (s : State) : Bool := s.flags.getLsbD (flagPos f)

/-- A word with one bit set or cleared. -/
def putBit (v : Word) (n : Nat) (b : Bool) : Word :=
  if b then v ||| BitVec.twoPow 16 n else v &&& ~~~(BitVec.twoPow 16 n)

/-- `setFlag(F, b)` (R133). -/
def setFlag (f : Flag) (b : Bool) (s : State) : State := { s with flags := putBit s.flags (flagPos f) b }

/-! ### The per-instruction hook (R130 to R132) -/

/-- What a hook does: flags it writes, in order, each through `setFlag` (R130). -/
abbrev FlagUpdates := List (Flag × Bool)

def applyFlagUpdates : FlagUpdates → State → State
  | [], s => s
  | u :: rest, s => applyFlagUpdates rest (setFlag u.1 u.2 s)

/-- The table of hooks, from an instruction and its result to the flags it writes (R130). The hook of every admitted
instruction is empty (R131), and there is none for a byte that is not admitted (R132). -/
def flagHook (i : Instr) (_result : Word) : FlagUpdates :=
  match i with
  | .movRm8R8 _ _ => []
  | .movRm16R16 _ _ => []
  | .movR8Rm8 _ _ => []
  | .movR16Rm16 _ _ => []
  | .unimplementedOpcode _ => []

/-- The engine's call of the hook after the perform phase (R101, R130). -/
def runFlagHook (i : Instr) (result : Word) (s : State) : State := applyFlagUpdates (flagHook i result) s

/-! ### Reference definitions of the result flags (R134 to R136)

Bound to no opcode (R131, R132): they are the spec's pure functions of operands and result, at width 8 or 16. -/

/-- ZF of R134. -/
def zeroFlag {n : Nat} (r : BitVec n) : Bool := r == 0

/-- SF of R134. -/
def signFlag {n : Nat} (r : BitVec n) : Bool := r.msb

/-- PF of R134: the number of 1 bits in the low byte is even, at both widths. -/
def parityFlag {n : Nat} (r : BitVec n) : Bool := ((List.range 8).filter fun k => r.getLsbD k).length % 2 == 0

/-- A carry-in or borrow-in as a number. -/
def carryIn (c : Bool) : Nat := if c then 1 else 0

/-- The sum of R135, modulo 2^N. -/
def addResult {n : Nat} (a b : BitVec n) (c : Bool) : BitVec n := a + b + BitVec.ofNat n (carryIn c)

/-- CF of R135: the unbounded sum reaches 2^N. -/
def addCarry {n : Nat} (a b : BitVec n) (c : Bool) : Bool := decide (2 ^ n ≤ a.toNat + b.toNat + carryIn c)

/-- OF of R135. -/
def addOverflow {n : Nat} (a b : BitVec n) (c : Bool) : Bool :=
  a.msb == b.msb && (addResult a b c).msb != a.msb

/-- AF of R135: bit 4 of `a XOR b XOR r`. -/
def addAuxCarry {n : Nat} (a b : BitVec n) (c : Bool) : Bool := (a ^^^ b ^^^ addResult a b c).getLsbD 4

/-- The difference of R136, modulo 2^N. -/
def subResult {n : Nat} (a b : BitVec n) (c : Bool) : BitVec n := a - b - BitVec.ofNat n (carryIn c)

/-- CF of R136: the borrow. -/
def subBorrow {n : Nat} (a b : BitVec n) (c : Bool) : Bool := decide (a.toNat < b.toNat + carryIn c)

/-- OF of R136. -/
def subOverflow {n : Nat} (a b : BitVec n) (c : Bool) : Bool :=
  a.msb != b.msb && (subResult a b c).msb != a.msb

/-- AF of R136: bit 4 of `a XOR b XOR r`. -/
def subAuxCarry {n : Nat} (a b : BitVec n) (c : Bool) : Bool := (a ^^^ b ^^^ subResult a b c).getLsbD 4

end Sys2Proof.Machine
end

