-- ==== Sys2Proof/Machine/Operands.lean ====
section
/-! DEFINITION. Effective addresses and operand locations (R80 to R84, R102). -/

namespace Sys2Proof.Machine

/-- The base and index sum `bi`, modulo 2^16 (R80, R81). -/
def baseSum : Base → State → Word
  | .bxSi, s => readReg16 .bx s + s.si
  | .bxDi, s => readReg16 .bx s + s.di
  | .bpSi, s => s.bp + s.si
  | .bpDi, s => s.bp + s.di
  | .si, s => s.si
  | .di, s => s.di
  | .bp, s => s.bp
  | .bx, s => readReg16 .bx s

/-- The effective address (R79, R81, R83): a flat address, no segment register takes part (R61). -/
def effectiveAddress : MemOperand → State → Word
  | .base b, s => baseSum b s
  | .disp8 b d, s => baseSum b s + sext16 d
  | .disp16 b d, s => baseSum b s + d
  | .direct a, _ => a

/-- A location of a byte operand: `Reg8(n)` or `Mem(a)` (R84). R102 pairs `Reg8` with w = 0 only. -/
inductive Loc8 where
  | reg (r : Reg8)
  | mem (a : Word)
  deriving DecidableEq, Repr

/-- A location of a word operand: `Reg16(n)` or `Mem(a)` (R84). R102 pairs `Reg16` with w = 1 only. -/
inductive Loc16 where
  | reg (r : Reg16)
  | mem (a : Word)
  deriving DecidableEq, Repr

/-- The location of an r/m operand, its address formed from the registers as they stand before the instruction writes
anything (R81, R101; log entry 7). -/
def locOfRm8 : Rm8 → State → Loc8
  | .reg r, _ => .reg r
  | .mem m, s => .mem (effectiveAddress m s)

def locOfRm16 : Rm16 → State → Loc16
  | .reg r, _ => .reg r
  | .mem m, s => .mem (effectiveAddress m s)

/-- `ReadLoc(loc, 0)` (R102). -/
def readLoc8 : Loc8 → State → Byte
  | .reg r, s => readReg8 r s
  | .mem a, s => readByte a s

/-- `ReadLoc(loc, 1)` (R102). -/
def readLoc16 : Loc16 → State → Word
  | .reg r, s => readReg16 r s
  | .mem a, s => readWord a s

/-- `WriteLoc(loc, 0, v)` (R102). -/
def writeLoc8 : Loc8 → Byte → State → State
  | .reg r, v, s => writeReg8 r v s
  | .mem a, v, s => storeByte a v s

/-- `WriteLoc(loc, 1, v)` (R102). -/
def writeLoc16 : Loc16 → Word → State → State
  | .reg r, v, s => writeReg16 r v s
  | .mem a, v, s => storeWord a v s

end Sys2Proof.Machine
end

