-- ==== Sys2Proof/Machine/Mov.lean ====
section
/-! DEFINITION. The data-transfer instructions (R120 to R124). -/

namespace Sys2Proof.Machine

/-- MOV r/m8, r8 (0x88, R120). -/
def execMovRm8R8 (dst : Rm8) (src : Reg8) (s : State) : Outcome :=
  let v := readLoc8 (.reg src) s
  .next (runFlagHook (.movRm8R8 dst src) (zext16 v) (writeLoc8 (locOfRm8 dst s) v s))

/-- MOV r/m16, r16 (0x89, R121). -/
def execMovRm16R16 (dst : Rm16) (src : Reg16) (s : State) : Outcome :=
  let v := readLoc16 (.reg src) s
  .next (runFlagHook (.movRm16R16 dst src) v (writeLoc16 (locOfRm16 dst s) v s))

/-- MOV r8, r/m8 (0x8A, R122). A build without `MOV_LOAD_FORMS` never decodes to it (R86), so it checks nothing. -/
def execMovR8Rm8 (dst : Reg8) (src : Rm8) (s : State) : Outcome :=
  let v := readLoc8 (locOfRm8 src s) s
  .next (runFlagHook (.movR8Rm8 dst src) (zext16 v) (writeLoc8 (.reg dst) v s))

/-- MOV r16, r/m16 (0x8B, R123). A build without `MOV_LOAD_FORMS` never decodes to it (R86), so it checks nothing. -/
def execMovR16Rm16 (dst : Reg16) (src : Rm16) (s : State) : Outcome :=
  let v := readLoc16 (locOfRm16 src s) s
  .next (runFlagHook (.movR16Rm16 dst src) v (writeLoc16 (.reg dst) v s))

end Sys2Proof.Machine
end

