-- ==== Sys2Proof/Machine/Dispatch.lean ====
section
/-! DEFINITION. `perform`: one arm per instruction (R103). -/

namespace Sys2Proof.Machine

def exec (i : Instr) (s : State) : Host.Outcome State Fault Refusal :=
  match i with
  | .movRm8R8 dst src => Sys2Proof.Machine.execMovRm8R8 dst src s
  | .movRm16R16 dst src => Sys2Proof.Machine.execMovRm16R16 dst src s
  | .movR8Rm8 dst src => Sys2Proof.Machine.execMovR8Rm8 dst src s
  | .movR16Rm16 dst src => Sys2Proof.Machine.execMovR16Rm16 dst src s
  | .unimplementedOpcode op => Sys2Proof.Machine.execUnimplementedOpcode op s

end Sys2Proof.Machine
end

