-- ==== Sys2Proof/Machine/Opcodes.lean ====
section
/-! DEFINITION. The admitted opcode bytes (R72, R86). -/

namespace Sys2Proof

/-- The opcodes that can be admitted; they share the pattern `100010dw` (R72). -/
inductive Opcode where
  | op88 | op89 | op8A | op8B
  deriving DecidableEq, Repr

/-- The byte of an opcode (R72). -/
def opcodeByte : Opcode → Byte
  | .op88 => 0x88
  | .op89 => 0x89
  | .op8A => 0x8A
  | .op8B => 0x8B

/-- `Admitted` of R86, as the opcode a byte stands for: 0x88 and 0x89 always, 0x8A and 0x8B in a build with
`MOV_LOAD_FORMS` (here `loads`). Every other byte is illegal (R87). -/
def admittedOpcode (loads : Bool) (b : Byte) : Option Opcode :=
  if b = 0x88 then some .op88
  else if b = 0x89 then some .op89
  else if loads = true ∧ b = 0x8A then some .op8A
  else if loads = true ∧ b = 0x8B then some .op8B
  else none

end Sys2Proof
end

