-- ==== Sys2Proof/WellFormed.lean ====
section
/-! DEFINITION. Which instructions have an encoding in a build (R83, R86, R87). -/

namespace Sys2Proof

/-- "[BP]" with no displacement has no encoding of its own (R83); every other memory operand has one (R82). -/
def MemOperand.wellFormed : MemOperand → Bool
  | .base b => b != .bp
  | .disp8 _ _ => true
  | .disp16 _ _ => true
  | .direct _ => true

def Rm8.wellFormed : Rm8 → Bool
  | .reg _ => true
  | .mem m => m.wellFormed

def Rm16.wellFormed : Rm16 → Bool
  | .reg _ => true
  | .mem m => m.wellFormed

/-- An instruction is well formed in a build when the build admits its opcode (R86) and its operands have an encoding;
the table's last row stands for the bytes that are not admitted, and only for those (R87). -/
def Instr.wellFormed (loads : Bool) : Instr → Bool
  | .movRm8R8 dst _ => dst.wellFormed
  | .movRm16R16 dst _ => dst.wellFormed
  | .movR8Rm8 _ src => loads && src.wellFormed
  | .movR16Rm16 _ src => loads && src.wellFormed
  | .unimplementedOpcode op => (admittedOpcode loads op).isNone

end Sys2Proof
end

