-- ==== Sys2Proof/Decode.lean ====
section
/-! DEFINITION. The decoder and the encoder (R70 to R92). -/

namespace Sys2Proof

/-! ### The fields of the ModRM byte (R75) -/

def modField (modrm : Byte) : BitVec 2 := modrm.extractLsb' 6 2

def regField (modrm : Byte) : BitVec 3 := modrm.extractLsb' 3 3

def rmField (modrm : Byte) : BitVec 3 := modrm.extractLsb' 0 3

/-- `modrm = mod * 64 + reg * 8 + rm` (R75). -/
def modrmByte (mod : BitVec 2) (reg rm : BitVec 3) : Byte := mod ++ reg ++ rm

/-- The byte register a 3-bit field names (R24). -/
def reg8OfField (n : BitVec 3) : Reg8 :=
  match n.toNat with
  | 0 => .al | 1 => .cl | 2 => .dl | 3 => .bl
  | 4 => .ah | 5 => .ch | 6 => .dh | _ => .bh

/-- The word register a 3-bit field names (R24). -/
def reg16OfField (n : BitVec 3) : Reg16 :=
  match n.toNat with
  | 0 => .ax | 1 => .cx | 2 => .dx | 3 => .bx
  | 4 => .sp | 5 => .bp | 6 => .si | _ => .di

/-- The base and index combination an rm field names (R80). -/
def baseOfField (n : BitVec 3) : Base :=
  match n.toNat with
  | 0 => .bxSi | 1 => .bxDi | 2 => .bpSi | 3 => .bpDi
  | 4 => .si | 5 => .di | 6 => .bp | _ => .bx

/-! ### Displacements (R78, R79) -/

/-- How many displacement bytes follow the ModRM byte. -/
inductive DispSize where
  | zero | one | two
  deriving DecidableEq, Repr

/-- The displacement as it was read. -/
inductive Disp where
  | absent
  | d8 (b : Byte)
  | d16 (w : Word)
  deriving DecidableEq, Repr

/-- The displacement size that mod and rm choose (R78); a register form has none (R77). -/
def dispSize (mod : BitVec 2) (rm : BitVec 3) : DispSize :=
  if mod = 0b00 then (if rm = 0b110 then .two else .zero)
  else if mod = 0b01 then .one
  else if mod = 0b10 then .two
  else .zero

/-- The memory operand of mod ≠ 0b11 (R78, R80, R83). -/
def memOperand (mod : BitVec 2) (rm : BitVec 3) : Disp → MemOperand
  | .absent => .base (baseOfField rm)
  | .d8 b => .disp8 (baseOfField rm) b
  | .d16 w => if mod = 0b00 then .direct w else .disp16 (baseOfField rm) w

/-- The r/m operand at byte width (R77, R78). -/
def rm8Operand (mod : BitVec 2) (rm : BitVec 3) (disp : Disp) : Rm8 :=
  if mod = 0b11 then .reg (reg8OfField rm) else .mem (memOperand mod rm disp)

/-- The r/m operand at word width (R77, R78). -/
def rm16Operand (mod : BitVec 2) (rm : BitVec 3) (disp : Disp) : Rm16 :=
  if mod = 0b11 then .reg (reg16OfField rm) else .mem (memOperand mod rm disp)

/-! ### Decoding (R85) -/

/-- The instruction of an admitted opcode, its ModRM byte and its displacement (R73, R74, R76, R85). -/
def assemble (op : Opcode) (modrm : Byte) (disp : Disp) : Instr :=
  match op with
  | .op88 => .movRm8R8 (rm8Operand (modField modrm) (rmField modrm) disp) (reg8OfField (regField modrm))
  | .op89 => .movRm16R16 (rm16Operand (modField modrm) (rmField modrm) disp) (reg16OfField (regField modrm))
  | .op8A => .movR8Rm8 (reg8OfField (regField modrm)) (rm8Operand (modField modrm) (rmField modrm) disp)
  | .op8B => .movR16Rm16 (reg16OfField (regField modrm)) (rm16Operand (modField modrm) (rmField modrm) disp)

/-- Why a list of bytes gives no instruction. Memory always has a next byte, so this arises for a list that ends early
and never in the machine (R88). -/
inductive DecodeError where
  /-- The list ends before the instruction does. -/
  | truncated
  deriving DecidableEq, Repr

/-- The instruction at the head of a byte list and its length, in the build where `loads` is `MOV_LOAD_FORMS` (R85).
An opcode byte outside the admitted set is read alone and named (R87, R151). -/
def decode (loads : Bool) : List Byte → Except DecodeError (Instr × Nat)
  | [] => .error .truncated
  | op :: rest =>
    match admittedOpcode loads op with
    | none => .ok (.unimplementedOpcode op, 1)
    | some o =>
      match rest with
      | [] => .error .truncated
      | modrm :: ds =>
        match dispSize (modField modrm) (rmField modrm), ds with
        | .zero, _ => .ok (assemble o modrm .absent, 2)
        | .one, d :: _ => .ok (assemble o modrm (.d8 d), 3)
        | .two, lo :: hi :: _ => .ok (assemble o modrm (.d16 (joinBytes hi lo)), 4)
        | .one, [] => .error .truncated
        | .two, [] => .error .truncated
        | .two, [_] => .error .truncated

/-! ### Encoding, from the same tables -/

def fieldOfReg8 : Reg8 → BitVec 3
  | .al => 0 | .cl => 1 | .dl => 2 | .bl => 3
  | .ah => 4 | .ch => 5 | .dh => 6 | .bh => 7

def fieldOfReg16 : Reg16 → BitVec 3
  | .ax => 0 | .cx => 1 | .dx => 2 | .bx => 3
  | .sp => 4 | .bp => 5 | .si => 6 | .di => 7

def fieldOfBase : Base → BitVec 3
  | .bxSi => 0 | .bxDi => 1 | .bpSi => 2 | .bpDi => 3
  | .si => 4 | .di => 5 | .bp => 6 | .bx => 7

/-- The ModRM byte and the displacement bytes of a memory operand beside a reg field (R70, R78). -/
def encodeMem (reg : BitVec 3) : MemOperand → List Byte
  | .base b => [modrmByte 0b00 reg (fieldOfBase b)]
  | .disp8 b d => [modrmByte 0b01 reg (fieldOfBase b), d]
  | .disp16 b d => [modrmByte 0b10 reg (fieldOfBase b), lo8 d, hi8 d]
  | .direct a => [modrmByte 0b00 reg 0b110, lo8 a, hi8 a]

def encodeRm8 (reg : BitVec 3) : Rm8 → List Byte
  | .reg r => [modrmByte 0b11 reg (fieldOfReg8 r)]
  | .mem m => encodeMem reg m

def encodeRm16 (reg : BitVec 3) : Rm16 → List Byte
  | .reg r => [modrmByte 0b11 reg (fieldOfReg16 r)]
  | .mem m => encodeMem reg m

/-- The bytes of an instruction, lowest address first (R70, R72). -/
def encode : Instr → List Byte
  | .movRm8R8 dst src => 0x88 :: encodeRm8 (fieldOfReg8 src) dst
  | .movRm16R16 dst src => 0x89 :: encodeRm16 (fieldOfReg16 src) dst
  | .movR8Rm8 dst src => 0x8A :: encodeRm8 (fieldOfReg8 dst) src
  | .movR16Rm16 dst src => 0x8B :: encodeRm16 (fieldOfReg16 dst) src
  | .unimplementedOpcode op => [op]

/-! ### Lengths (R71) -/

def MemOperand.dispLength : MemOperand → Nat
  | .base _ => 0
  | .disp8 _ _ => 1
  | .disp16 _ _ => 2
  | .direct _ => 2

def Rm8.dispLength : Rm8 → Nat
  | .reg _ => 0
  | .mem m => m.dispLength

def Rm16.dispLength : Rm16 → Nat
  | .reg _ => 0
  | .mem m => m.dispLength

/-- The length in bytes: the opcode byte, the ModRM byte and the displacement (R71); one byte is fetched of an opcode
that is not admitted (R151). -/
def Instr.length : Instr → Nat
  | .movRm8R8 dst _ => 2 + dst.dispLength
  | .movRm16R16 dst _ => 2 + dst.dispLength
  | .movR8Rm8 _ src => 2 + src.dispLength
  | .movR16Rm16 _ src => 2 + src.dispLength
  | .unimplementedOpcode _ => 1

/-! ### The host's numbering of a table word -/

/-- The four bytes, lowest address first, of an instruction whose low `nbits` bits are `w` and whose other bits are 0:
bit 0 of `w` is bit 0 of the opcode byte, and four bytes are the longest instruction (R71). -/
def tableBytes (nbits w : Nat) : List Byte :=
  [BitVec.ofNat 8 (w % 2 ^ nbits), BitVec.ofNat 8 (w % 2 ^ nbits / 256),
    BitVec.ofNat 8 (w % 2 ^ nbits / 65536), BitVec.ofNat 8 (w % 2 ^ nbits / 16777216)]

/-- What the decoder reads from a table word, in the build that admits every row of the table (log entry 2). -/
def decodeTableWord (nbits w : Nat) : Option Instr :=
  match decode true (tableBytes nbits w) with
  | .ok (i, _) => some i
  | .error _ => none

end Sys2Proof
end

