-- ==== Sys2Proof/Machine/Fetch.lean ====
section
/-! DEFINITION. Fetching an instruction byte by byte at ip (R13, R62, R85), and placing one there for the host. -/

namespace Sys2Proof.Machine

/-- A step during its fetches: the state, and the bytes consumed so far, which are not state between steps (R40,
R100). -/
structure Fetching where
  state : State
  consumed : Nat
  deriving DecidableEq, Repr

/-- `Fetch8()`: the one way the instruction stream is read (R13). ip wraps (R28). -/
def fetch8 (f : Fetching) : Byte × Fetching :=
  (readByte f.state.ip f.state, { state := setIp (f.state.ip + 1) f.state, consumed := f.consumed + 1 })

/-- `Fetch16()`: the low byte first (R13). -/
def fetch16 (f : Fetching) : Word × Fetching :=
  let lo := fetch8 f
  let hi := fetch8 lo.2
  (joinBytes hi.1 lo.1, hi.2)

/-- The displacement of the size that mod and rm choose (R78, R85). -/
def fetchDisp (size : DispSize) (f : Fetching) : Disp × Fetching :=
  match size with
  | .zero => (.absent, f)
  | .one => (.d8 (fetch8 f).1, (fetch8 f).2)
  | .two => (.d16 (fetch16 f).1, (fetch16 f).2)

/-- The opcode fetch of R101 and the decode algorithm of R85. An opcode byte that the build does not admittedOpcode is named
before anything more is fetched (R151). -/
def fetchInstr (s : State) : Instr × Fetching :=
  let op := fetch8 { state := s, consumed := 0 }
  match admittedOpcode s.config.movLoadForms op.1 with
  | none => (.unimplementedOpcode op.1, op.2)
  | some o =>
    let modrm := fetch8 op.2
    let disp := fetchDisp (dispSize (modField modrm.1) (rmField modrm.1)) modrm.2
    (assemble o modrm.1 disp.1, disp.2)

/-- The bytes from ip on, as far as the longest instruction reaches (R71); the addresses wrap (R28). -/
def bytesAtIp (s : State) : List Byte :=
  [readByte s.ip s, readByte (s.ip + 1) s, readByte (s.ip + 2) s, readByte (s.ip + 3) s]

/-- The bytes stored from an address on, as a loader's `write_byte` calls store them (R163). -/
def placeBytes : List Byte → Word → State → State
  | [], _, s => s
  | b :: rest, a, s => placeBytes rest (a + 1) (storeByte a b s)

/-- The build that admits an opcode byte: the row of 0x8A or 0x8B exists only where `MOV_LOAD_FORMS` is true (R86; log
entry 2). Every other byte leaves the parameters alone. -/
def configAdmitting (op : Byte) (c : Config) : Config :=
  { c with movLoadForms := c.movLoadForms || (op == 0x8A || op == 0x8B) }

end Sys2Proof.Machine
end

