-- ==== Sys2Proof/Machine/Step.lean ====
section
/-! DEFINITION. One step of the engine (R101), and an instruction placed where the step fetches it. -/

namespace Sys2Proof.Machine

/-- One step executes one instruction: fetch and decode, perform and update flags, account for the cycles (R101). With
mode Running it is one pass of the loop of `execute` (R104); with mode Idle it is the host's `step()` (R108; log
entry 6). -/
def step (s : State) : Host.Outcome State Fault Refusal :=
  let fetched := fetchInstr s
  match exec fetched.1 fetched.2.state with
  | .next t => .next (chargeCycles fetched.2.consumed t)
  | .fault r => .fault r
  | .refused r => .refused r

/-- The state with a table word stored at ip, in the build that has its row (log entry 2). -/
def State.withFetchWord (s : State) (nbits w : Nat) : State :=
  placeBytes (tableBytes nbits w) s.ip
    { s with config := configAdmitting (BitVec.ofNat 8 (w % 2 ^ nbits)) s.config }

end Sys2Proof.Machine
end

