-- ==== Sys2Proof/Machine/HostOps.lean ====
section
/-! DEFINITION. The operations of the host (R163): reset, execute, step, memory and register accessors. -/

namespace Sys2Proof.Machine

/-! ### Reset, execute, step -/

/-- `reset()` (R180, R181); the build's parameters are not state of the machine and stay. -/
def hostReset (s : State) : State := State.resetWith s.config

/-- The state after a step. Every step answers a next state; any other outcome would leave the state alone. -/
def afterStep (s : State) : State :=
  match step s with
  | .next t => t
  | .fault _ => s
  | .refused _ => s

/-- The loop of R104: steps while budget is left, at most `fuel` of them. -/
def runLoop : Nat → State → State
  | 0, s => s
  | fuel + 1, s => if 0 < s.budget then runLoop fuel (afterStep s) else s

/-- The beginning of `execute(n)` (R104): the budget is set, `total` is 0, and the engine runs if there is budget
(R109). -/
def beginExecute (n : Nat) (s : State) : State :=
  { s with budget := n, mode := if n = 0 then .idle else .running, report := .empty }

/-- `execute(n)` (R104). A step spends at least one unit, so `n` steps exhaust the budget (R111). The result is in the
report. -/
def hostExecute (n : Nat) (s : State) : State := runLoop n (beginExecute n s)

/-- The beginning of the host's `step()`: it runs whatever the budget, and Idle (R108). -/
def beginStep (s : State) : State := { s with mode := .idle, report := .empty }

/-- The host's `step()` (R108). -/
def hostStep (s : State) : State := afterStep (beginStep s)

/-! ### Register accessors (R36, R37) -/

/-- `get_byte`: a selector outside ByteReg fails with InvalidRegister (R36). -/
def getByte (sel : Selector) (s : State) : Except Fault Byte :=
  match sel with
  | .byte (.reg r) => .ok (readReg8 r s)
  | .byte .flagsL => .ok (readFlagsL s)
  | .byte .flagsH => .ok (readFlagsH s)
  | .word _ => .error (.invalidRegister sel)
  | .seg _ => .error (.invalidRegister sel)

/-- `set_byte`: a selector outside ByteReg fails and changes no state (R36). -/
def setByte (sel : Selector) (b : Byte) (s : State) : Except Fault State :=
  match sel with
  | .byte (.reg r) => .ok (writeReg8 r b s)
  | .byte .flagsL => .ok (writeFlagsL b s)
  | .byte .flagsH => .ok (writeFlagsH b s)
  | .word _ => .error (.invalidRegister sel)
  | .seg _ => .error (.invalidRegister sel)

/-- `get_word`: a selector outside WordReg and SegReg fails with InvalidRegister (R36). -/
def getWord (sel : Selector) (s : State) : Except Fault Word :=
  match sel with
  | .word (.reg r) => .ok (readReg16 r s)
  | .word .ip => .ok s.ip
  | .seg r => .ok (readSeg r s)
  | .byte _ => .error (.invalidRegister sel)

/-- `set_word`: a selector outside WordReg and SegReg fails and changes no state (R36). -/
def setWord (sel : Selector) (v : Word) (s : State) : Except Fault State :=
  match sel with
  | .word (.reg r) => .ok (writeReg16 r v s)
  | .word .ip => .ok (setIp v s)
  | .seg r => .ok (writeSeg r v s)
  | .byte _ => .error (.invalidRegister sel)

/-! ### The operations as one table (R163) -/

/-- What the host sends. -/
inductive HostOp where
  | reset
  | execute (n : Nat)
  | step
  | writeByte (a : Word) (b : Byte)
  | readByte (a : Word)
  | getByte (sel : Selector)
  | setByte (sel : Selector) (b : Byte)
  | getWord (sel : Selector)
  | setWord (sel : Selector) (v : Word)
  deriving DecidableEq, Repr

/-- What the host gets back. -/
inductive HostReply where
  /-- Nothing is returned. -/
  | done
  /-- `Ok(total)` of `execute`, `Ok(k)` of `step`. -/
  | ok (cycles : Nat)
  /-- `Err(E, info, total)` of `execute` (R104). -/
  | runError (e : Fault) (total : Nat)
  /-- `Err(E, info)` of `step` (R108), or an accessor's failure (R36). -/
  | error (e : Fault)
  | byte (b : Byte)
  | word (v : Word)
  deriving DecidableEq, Repr

/-- The return value of `execute`, read from the report (R104, R106). -/
def executeReply (t : State) : HostReply :=
  match t.report.error with
  | none => .ok t.report.total
  | some e => .runError e t.report.total

/-- The return value of the host's `step()` (R108). -/
def stepReply (t : State) : HostReply :=
  match t.report.error with
  | none => .ok t.report.total
  | some e => .error e

/-- An accessor that reads. -/
def readReply {α : Type} (reply : α → HostReply) (s : State) : Except Fault α → State × HostReply
  | .ok v => (s, reply v)
  | .error e => (s, .error e)

/-- An accessor that writes. -/
def writeReply (s : State) : Except Fault State → State × HostReply
  | .ok t => (t, .done)
  | .error e => (s, .error e)

/-- One host operation: the state it leaves and what the host gets back (R163). -/
def hostCall (op : HostOp) (s : State) : State × HostReply :=
  match op with
  | .reset => (hostReset s, .done)
  | .execute n => (hostExecute n s, executeReply (hostExecute n s))
  | .step => (hostStep s, stepReply (hostStep s))
  | .writeByte a b => (storeByte a b s, .done)
  | .readByte a => (s, .byte (Sys2Proof.Machine.readByte a s))
  | .getByte sel => readReply .byte s (Sys2Proof.Machine.getByte sel s)
  | .setByte sel b => writeReply s (Sys2Proof.Machine.setByte sel b s)
  | .getWord sel => readReply .word s (Sys2Proof.Machine.getWord sel s)
  | .setWord sel v => writeReply s (Sys2Proof.Machine.setWord sel v s)

end Sys2Proof.Machine
end

