-- ==== Sys2Proof/Safety.lean ====
section
/-! DEFINITION. What claims are said in: the invariant, the parts of the state an instruction leaves alone, and a run
without an error. -/

namespace Sys2Proof.Machine

/-- The engine is Running exactly while budget is left (R39). -/
def engineConsistent (s : State) : Bool := decide (s.mode = .running) == decide (0 < s.budget)

/-- The machine's invariant: memory is in canonical form (log entry 9), the reserved flag bits are 0 (R30), and the
engine is Running exactly while budget is left (R39). -/
structure State.Inv (s : State) : Prop where
  memory : s.mem.wf = true
  reservedFlags : reservedFlagsZero s.flags = true
  engine : engineConsistent s = true

/-- Everything but registers, memory and ip is as before: flags, segment registers, the engine's state, the parameters
and the report. -/
structure SystemUnchanged (s t : State) : Prop where
  flags : t.flags = s.flags
  cs : t.cs = s.cs
  ds : t.ds = s.ds
  ss : t.ss = s.ss
  es : t.es = s.es
  mode : t.mode = s.mode
  budget : t.budget = s.budget
  config : t.config = s.config
  report : t.report = s.report

/-- Every general-purpose and pointer register is as before, in its byte and its word view. -/
structure RegistersUnchanged (s t : State) : Prop where
  bytes : ∀ r, readReg8 r t = readReg8 r s
  words : ∀ r, readReg16 r t = readReg16 r s

/-- SP, BP, SI and DI are as before. -/
structure PointersUnchanged (s t : State) : Prop where
  sp : t.sp = s.sp
  bp : t.bp = s.bp
  si : t.si = s.si
  di : t.di = s.di

/-- Every byte of memory reads as before. -/
def MemoryUnchanged (s t : State) : Prop := ∀ a, readByte a t = readByte a s

/-- The one location a MOV writes (R124). -/
inductive Destination where
  | byteRegister (r : Reg8)
  | wordRegister (r : Reg16)
  | byteAt (a : Word)
  | wordAt (a : Word)
  deriving DecidableEq, Repr

/-- What an instruction writes besides ip: a MOV its destination, whose address the meaning forms in the same way
(R120 to R124); an illegal opcode nothing (R151). -/
def destinationOf : Instr → State → Option Destination
  | .movRm8R8 (.reg r) _, _ => some (.byteRegister r)
  | .movRm8R8 (.mem m) _, s => some (.byteAt (effectiveAddress m s))
  | .movRm16R16 (.reg r) _, _ => some (.wordRegister r)
  | .movRm16R16 (.mem m) _, s => some (.wordAt (effectiveAddress m s))
  | .movR8Rm8 r _, _ => some (.byteRegister r)
  | .movR16Rm16 r _, _ => some (.wordRegister r)
  | .unimplementedOpcode _, _ => none

/-- Every register and every byte of memory outside the destination is as before. -/
def OutsideUnchanged (d : Option Destination) (s t : State) : Prop :=
  match d with
  | some (.byteRegister r) => (∀ x, x ≠ r → readReg8 x t = readReg8 x s) ∧ PointersUnchanged s t ∧ MemoryUnchanged s t
  | some (.wordRegister r) => (∀ x, x ≠ r → readReg16 x t = readReg16 x s) ∧ MemoryUnchanged s t
  | some (.byteAt a) => RegistersUnchanged s t ∧ ∀ x, x ≠ a → readByte x t = readByte x s
  | some (.wordAt a) => RegistersUnchanged s t ∧ ∀ x, x ≠ a → x ≠ a + 1 → readByte x t = readByte x s
  | none => RegistersUnchanged s t ∧ MemoryUnchanged s t

/-- The state at the end of `k` steps that all answer a next state. -/
def Runs : Nat → State → State → Prop
  | 0, s, t => t = s
  | k + 1, s, t => ∃ u, step s = .next u ∧ Runs k u t

/-- No error has been reported since the report was cleared. A claim that a run went well says this of its last state:
the report keeps an error once a step has raised one (log entry 5). -/
def State.NoError (s : State) : Prop := s.report.error = none

end Sys2Proof.Machine
end

