-- ==== Sys2Proof/Certificates/Slice0/Obligations.lean ====
section
/-! DEFINITION. The statements for the provers, from the spec's numbered rules. -/

open Sys2Proof Sys2Proof.Machine

namespace Sys2Proof.Statements

/-! ### The spec's tables as numbers, for the statements to be held against -/

/-- The general-purpose registers in the order A, C, D, B of R24. -/
def gprAt (n : Nat) (s : State) : Gpr :=
  match n with
  | 0 => s.gprA
  | 1 => s.gprC
  | 2 => s.gprD
  | _ => s.gprB

/-- The pointer and index registers in the order of R24. -/
def pointerAt (n : Nat) (s : State) : Word :=
  match n with
  | 0 => s.sp
  | 1 => s.bp
  | 2 => s.si
  | _ => s.di

/-- A word register with its low and its high byte (the table of R23). -/
def overlays : List (Reg16 × Reg8 × Reg8) :=
  [(.ax, .al, .ah), (.cx, .cl, .ch), (.dx, .dl, .dh), (.bx, .bl, .bh)]

/-- The sum `bi` of the table of R80, by the rm field. -/
def baseByField (rm : Nat) (s : State) : Word :=
  match rm with
  | 0 => joinBytes s.gprB.hi s.gprB.lo + s.si
  | 1 => joinBytes s.gprB.hi s.gprB.lo + s.di
  | 2 => s.bp + s.si
  | 3 => s.bp + s.di
  | 4 => s.si
  | 5 => s.di
  | 6 => s.bp
  | _ => joinBytes s.gprB.hi s.gprB.lo

/-- The displacement read for a memory form (R78). -/
def dispRead (mod : BitVec 2) (rm : BitVec 3) (d8 : Byte) (d16 : Word) : Disp :=
  match dispSize mod rm with
  | .zero => .absent
  | .one => .d8 d8
  | .two => .d16 d16

/-- `EA(mod, rm, disp)` of R81 with the displacement values of R78. -/
def addressByFields (mod rm : Nat) (d8 : Byte) (d16 : Word) (s : State) : Word :=
  if mod = 0 then (if rm = 6 then d16 else baseByField rm s)
  else if mod = 1 then baseByField rm s + d8.signExtend 16
  else baseByField rm s + d16

/-- The length table of R71, from a ModRM byte as a number. -/
def lengthByModrm (modrm : Nat) : Nat :=
  if modrm / 64 = 3 then 2
  else if modrm / 64 = 2 then 4
  else if modrm / 64 = 1 then 3
  else if modrm % 8 = 6 then 4
  else 2

/-- The cycle units of the step that starts in a state (R107): one for an opcode that is not admitted. -/
def cyclesOf (s : State) : Nat :=
  if admittedOpcode s.config.movLoadForms (readByte s.ip s) = none then 1
  else lengthByModrm (readByte (s.ip + 1) s).toNat

/-- Two memory operands that no MOV tells apart. -/
def SameOperand (m m' : MemOperand) : Prop :=
  (∀ r s, exec (.movRm8R8 (.mem m) r) s = exec (.movRm8R8 (.mem m') r) s) ∧
  (∀ r s, exec (.movRm16R16 (.mem m) r) s = exec (.movRm16R16 (.mem m') r) s) ∧
  (∀ r s, exec (.movR8Rm8 r (.mem m)) s = exec (.movR8Rm8 r (.mem m')) s) ∧
  (∀ r s, exec (.movR16Rm16 r (.mem m)) s = exec (.movR16Rm16 r (.mem m')) s)

/-- The instruction at ip decodes to `i` in `k` bytes. -/
def DecodesAtIp (s : State) (i : Instr) (k : Nat) : Prop :=
  decode s.config.movLoadForms (bytesAtIp s) = .ok (i, k)

end Sys2Proof.Statements

open Sys2Proof.Statements

/-! ### Reset -/

/-- R180: what reset leaves in every row of R20, in any build and from any state, and the default build's values. -/
def Obligations.ResetSetsEveryPieceOfState : Prop :=
  (∀ s : State,
    (∀ r, readReg8 r (hostReset s) = 0x00) ∧ (∀ r, readReg16 r (hostReset s) = 0x0000) ∧
    (hostReset s).ip = s.config.resetIp ∧ (hostReset s).cs = s.config.resetCs ∧
    (hostReset s).ds = 0x0000 ∧ (hostReset s).ss = 0x0000 ∧ (hostReset s).es = 0x0000 ∧
    (hostReset s).flags = 0x0000 ∧ (∀ a, readByte a (hostReset s) = 0x00) ∧
    (hostReset s).mode = .idle ∧ (hostReset s).budget = 0) ∧
  hostReset State.reset = State.reset ∧ State.reset.ip = 0x0000 ∧ State.reset.cs = 0xFFFF

/-- R181: reset forgets the prior state; what it leaves depends on `RESET_IP` and `RESET_CS` alone. The build's
parameters stand in the model's own field `config` (log entry 1), which is no state of the machine and is set aside. -/
def Obligations.ResetForgetsThePriorState : Prop :=
  ∀ s t : State, s.config.resetIp = t.config.resetIp → s.config.resetCs = t.config.resetCs →
    { hostReset s with config := t.config } = hostReset t

/-! ### Registers -/

/-- R22: the three views of each general-purpose register after each write. -/
def Obligations.RegisterViewsStayConsistent : Prop :=
  ∀ w l h, (w, l, h) ∈ overlays → ∀ (s : State) (v : Word) (b : Byte),
    readReg16 w s = joinBytes (readReg8 h s) (readReg8 l s) ∧
    (readReg8 l (writeReg16 w v s) = lo8 v ∧ readReg8 h (writeReg16 w v s) = hi8 v ∧
      readReg16 w (writeReg16 w v s) = v) ∧
    (readReg8 l (writeReg8 l b s) = b ∧ readReg8 h (writeReg8 l b s) = readReg8 h s ∧
      readReg16 w (writeReg8 l b s) = joinBytes (readReg8 h s) b) ∧
    (readReg8 h (writeReg8 h b s) = b ∧ readReg8 l (writeReg8 h b s) = readReg8 l s ∧
      readReg16 w (writeReg8 h b s) = joinBytes b (readReg8 l s))

/-- The formula under the table of R24: which register each value of a ModRM register field names, at both widths. -/
def Obligations.RegisterFieldsNameTheTable : Prop :=
  ∀ (n : BitVec 3) (s : State),
    readReg8 (reg8OfField n) s =
      (if n.toNat < 4 then (gprAt n.toNat s).lo else (gprAt (n.toNat - 4) s).hi) ∧
    readReg16 (reg16OfField n) s =
      (if n.toNat < 4 then joinBytes (gprAt n.toNat s).hi (gprAt n.toNat s).lo else pointerAt (n.toNat - 4) s)

/-- R25: SP, BP, SI and DI share no storage with a byte view or with another word register. -/
def Obligations.PointerRegistersHaveNoByteViews : Prop :=
  ∀ p, p ∈ [Reg16.sp, .bp, .si, .di] → ∀ (s : State) (v : Word) (b : Byte),
    readReg16 p (writeReg16 p v s) = v ∧
    (∀ r, readReg8 r (writeReg16 p v s) = readReg8 r s) ∧
    (∀ w, w ≠ p → readReg16 w (writeReg16 p v s) = readReg16 w s) ∧
    (∀ r, readReg16 p (writeReg8 r b s) = readReg16 p s)

/-! ### Memory -/

/-- R53: a byte store sets its address and changes no other address and no register. -/
def Obligations.ByteStoreChangesOneByte : Prop :=
  ∀ (s : State) (a : Word) (b : Byte),
    readByte a (storeByte a b s) = b ∧ (∀ x, x ≠ a → readByte x (storeByte a b s) = readByte x s) ∧
    { storeByte a b s with mem := s.mem } = s

/-- R55: a word store sets the low byte at the address and the high byte at the next, which wraps at 0xFFFF; a word read
gives the word back (R54); the order of the two byte writes cannot be observed. -/
def Obligations.WordStoreIsLittleEndian : Prop :=
  ∀ (s : State) (a v : Word),
    readByte a (storeWord a v s) = lo8 v ∧ readByte (a + 1) (storeWord a v s) = hi8 v ∧
    (∀ x, x ≠ a → x ≠ a + 1 → readByte x (storeWord a v s) = readByte x s) ∧
    readWord a (storeWord a v s) = v ∧
    (∀ x, readByte x (storeByte a (lo8 v) (storeByte (a + 1) (hi8 v) s)) = readByte x (storeWord a v s)) ∧
    { storeWord a v s with mem := s.mem } = s ∧ (0xFFFF : Word) + 1 = 0x0000

/-- The canonical form is canonical: memories that read alike at every address of the address space are equal lists. A
property of the model's representation (log entry 9), no rule of the spec. -/
def Obligations.CanonicalMemoriesThatReadAlikeAreEqual : Prop :=
  ∀ m m' : Memory, m.wf = true → m'.wf = true → (∀ a, a < memorySize → m.lookup a = m'.lookup a) → m = m'

/-! ### Decoding and encoding -/

/-- R86: the admitted opcode bytes, in the build with and in the build without `MOV_LOAD_FORMS`. -/
def Obligations.AdmittedOpcodesDependOnMovLoadForms : Prop :=
  ∀ (loads : Bool) (op : Byte),
    (admittedOpcode loads op).isSome = true ↔ op = 0x88 ∨ op = 0x89 ∨ (loads = true ∧ (op = 0x8A ∨ op = 0x8B))

/-- The decoder names an opcode byte that is not admitted, whatever follows it, and names no other (R87 in part). -/
def Obligations.IllegalOpcodesAreNamed : Prop :=
  ∀ (loads : Bool) (op : Byte) (rest : List Byte),
    (admittedOpcode loads op = none → decode loads (op :: rest) = .ok (.unimplementedOpcode op, 1)) ∧
    (∀ b k, decode loads (op :: rest) = .ok (.unimplementedOpcode b, k) → b = op ∧ k = 1 ∧ admittedOpcode loads op = none)

/-- R71: the length of an admitted instruction is a function of its ModRM byte, and two more bytes always suffice. -/
def Obligations.LengthIsFixedByOpcodeAndModrm : Prop :=
  ∀ (loads : Bool) (op modrm : Byte) (ds : List Byte), (admittedOpcode loads op).isSome = true →
    (2 ≤ ds.length → ∃ i, decode loads (op :: modrm :: ds) = .ok (i, lengthByModrm modrm.toNat)) ∧
    (∀ i k, decode loads (op :: modrm :: ds) = .ok (i, k) → k = lengthByModrm modrm.toNat)

/-- Decoding what the encoder writes gives the instruction back, every operand at every value, in both builds. -/
def Obligations.DecodeInvertsEncode : Prop :=
  ∀ (loads : Bool) (i : Instr) (rest : List Byte), i.wellFormed loads = true →
    decode loads (encode i ++ rest) = .ok (i, i.length)

/-- What decodes is well formed, and the bytes it was decoded from are its encoding: no bit of them is ignored (R90). -/
def Obligations.DecodedBytesAreTheEncoding : Prop :=
  ∀ (loads : Bool) (bytes : List Byte) (i : Instr) (k : Nat), decode loads bytes = .ok (i, k) →
    i.wellFormed loads = true ∧ k = i.length ∧ bytes.take k = encode i

/-- Words written out from the encodings of R70 to R83: the source's two examples, a byte form, the direct address, a
signed 8-bit displacement, a 16-bit displacement, the two load forms and an illegal byte. -/
def Obligations.SampleWordsDecodeAsTheirRowsSay : Prop :=
  decode false [0x89, 0xC1] = .ok (.movRm16R16 (.reg .cx) .ax, 2) ∧
  decode false [0x89, 0x07] = .ok (.movRm16R16 (.mem (.base .bx)) .ax, 2) ∧
  decode false [0x88, 0xE0] = .ok (.movRm8R8 (.reg .al) .ah, 2) ∧
  decode false [0x89, 0x06, 0x34, 0x12] = .ok (.movRm16R16 (.mem (.direct 0x1234)) .ax, 4) ∧
  decode false [0x88, 0x46, 0xFF] = .ok (.movRm8R8 (.mem (.disp8 .bp 0xFF)) .al, 3) ∧
  decode false [0x89, 0xB9, 0x00, 0x01] = .ok (.movRm16R16 (.mem (.disp16 .bxDi 0x0100)) .di, 4) ∧
  decode true [0x8A, 0x5C, 0x02] = .ok (.movR8Rm8 .bl (.mem (.disp8 .si 0x02)), 3) ∧
  decode true [0x8B, 0xC8] = .ok (.movR16Rm16 .cx (.reg .ax), 2) ∧
  decode false [0x8B, 0xC8] = .ok (.unimplementedOpcode 0x8B, 1)

/-- R81: the effective address of every (mod, rm) pair of a memory form, at every displacement, and that a load into the
base register itself uses the address formed before its write. -/
def Obligations.EffectiveAddressFollowsTheTable : Prop :=
  (∀ (mod : BitVec 2) (rm : BitVec 3) (d8 : Byte) (d16 : Word) (s : State), mod ≠ 0b11 →
    effectiveAddress (memOperand mod rm (dispRead mod rm d8 d16)) s =
      addressByFields mod.toNat rm.toNat d8 d16 s) ∧
  (∀ (m : MemOperand) (s t : State) (r : Reg8), exec (.movR8Rm8 r (.mem m)) s = .next t →
    readReg8 r t = readByte (effectiveAddress m s) s) ∧
  (∀ (m : MemOperand) (s t : State) (r : Reg16), exec (.movR16Rm16 r (.mem m)) s = .next t →
    readReg16 r t = joinBytes (readByte (effectiveAddress m s + 1) s) (readByte (effectiveAddress m s) s))

/-- R91: every encoding of one operation is legal and means the same; they differ in length. -/
def Obligations.RedundantEncodingsMeanTheSame : Prop :=
  (∀ b : Base, b ≠ .bp →
    SameOperand (.base b) (.disp8 b 0x00) ∧ SameOperand (.base b) (.disp16 b 0x0000) ∧
    (MemOperand.base b).wellFormed = true) ∧
  (∀ (b : Base) (d : Byte),
    SameOperand (.disp8 b d) (.disp16 b (sext16 d)) ∧
    (MemOperand.disp8 b d).wellFormed = true ∧ (MemOperand.disp16 b (sext16 d)).wellFormed = true ∧
    (MemOperand.base b).dispLength + 1 = (MemOperand.disp8 b d).dispLength ∧
    (MemOperand.disp8 b d).dispLength + 1 = (MemOperand.disp16 b (sext16 d)).dispLength) ∧
  (∀ (r x : Reg8) (s : State),
    exec (.movRm8R8 (.reg r) x) s = exec (.movR8Rm8 r (.reg x)) s ∧
    (Instr.movRm8R8 (.reg r) x).wellFormed true = true ∧ (Instr.movR8Rm8 r (.reg x)).wellFormed true = true) ∧
  (∀ (r x : Reg16) (s : State),
    exec (.movRm16R16 (.reg r) x) s = exec (.movR16Rm16 r (.reg x)) s ∧
    (Instr.movRm16R16 (.reg r) x).wellFormed true = true ∧ (Instr.movR16Rm16 r (.reg x)).wellFormed true = true)

/-! ### Fetch and step -/

/-- R89: decoding changes ip and nothing else; each byte consumed advances ip and `consumed` by 1. -/
def Obligations.DecodingChangesOnlyIp : Prop :=
  (∀ s : State, (fetchInstr s).2.state = { s with ip := s.ip + BitVec.ofNat 16 (fetchInstr s).2.consumed }) ∧
  (∀ f : Fetching, (fetch8 f).2.state = { f.state with ip := f.state.ip + 1 } ∧
    (fetch8 f).2.consumed = f.consumed + 1 ∧ (fetch8 f).1 = readByte f.state.ip f.state)

/-- R88: every memory and every ip decode, either to the error at the opcode byte or to a MOV, and no step raises
another error. -/
def Obligations.DecoderIsTotalOnBytes : Prop :=
  (∀ s : State,
    (admittedOpcode s.config.movLoadForms (readByte s.ip s) = none →
      (fetchInstr s).1 = .unimplementedOpcode (readByte s.ip s) ∧ (fetchInstr s).2.consumed = 1) ∧
    ((admittedOpcode s.config.movLoadForms (readByte s.ip s)).isSome = true →
      ∀ op, (fetchInstr s).1 ≠ .unimplementedOpcode op)) ∧
  (∀ (loads : Bool) (bytes : List Byte), 4 ≤ bytes.length →
    ∃ i k, decode loads bytes = .ok (i, k) ∧ 1 ≤ k ∧ k ≤ 4) ∧
  (∀ s t : State, s.report.error = none → step s = .next t →
    t.report.error ≠ some .addressingNotImplemented ∧ ∀ sel, t.report.error ≠ some (.invalidRegister sel))

/-- Fetching byte by byte with ip (R85) gives what the decoder reads from the bytes at ip. -/
def Obligations.FetchAgreesWithTheByteDecoder : Prop :=
  ∀ (s : State) (i : Instr) (k : Nat), DecodesAtIp s i k ↔
    fetchInstr s = (i, { state := { s with ip := s.ip + BitVec.ofNat 16 k }, consumed := k })

/-- A step runs the instruction that the bytes at ip decode to, on the state with ip moved past it, and then accounts
for its bytes. -/
def Obligations.StepRunsTheDecodedInstruction : Prop :=
  ∀ (s : State) (i : Instr) (k : Nat), DecodesAtIp s i k →
    step s =
      match exec i { s with ip := s.ip + BitVec.ofNat 16 k } with
      | .next t => .next (chargeCycles k t)
      | .fault r => .fault r
      | .refused r => .refused r

/-- Every step of every state answers a next state: no access faults, no byte fails to decode, nothing is refused. That
an illegal opcode answers a next state too is the model's choice (log entry 4). -/
def Obligations.EveryStepAnswersANextState : Prop :=
  ∀ s : State, ∃ t, step s = .next t

/-- R107: a step costs its instruction's length, and one unit for an illegal opcode; ip advances by the same count. -/
def Obligations.StepCostsItsLengthInBytes : Prop :=
  ∀ s t : State, step s = .next t →
    t.report.total = s.report.total + cyclesOf s ∧ t.ip = s.ip + BitVec.ofNat 16 (cyclesOf s)

/-- A table word placed by the host is what the next step fetches, as the table's decoder reads it. The model's choice
of how a program is placed (log entry 2). -/
def Obligations.PlacedWordIsFetchedNext : Prop :=
  ∀ (s : State) (nbits w : Nat) (i : Instr), decodeTableWord nbits w = some i →
    (fetchInstr (s.withFetchWord nbits w)).1 = i ∧ bytesAtIp (s.withFetchWord nbits w) = tableBytes nbits w

/-! ### The instructions: what each answers -/

/-- 0x88 answers a next state from every state: the destination holds the source byte, all else is as before. -/
def Obligations.MovRm8R8StoresTheSourceByte : Prop :=
  ∀ (dst : Rm8) (src : Reg8) (s : State), ∃ t, exec (.movRm8R8 dst src) s = .next t ∧
    (∀ r, dst = .reg r → readReg8 r t = readReg8 src s) ∧
    (∀ m, dst = .mem m → readByte (effectiveAddress m s) t = readReg8 src s) ∧
    OutsideUnchanged (destinationOf (.movRm8R8 dst src) s) s t ∧ SystemUnchanged s t ∧ t.ip = s.ip

/-- 0x89 answers a next state from every state: the destination holds the source word, in memory low byte first. -/
def Obligations.MovRm16R16StoresTheSourceWord : Prop :=
  ∀ (dst : Rm16) (src : Reg16) (s : State), ∃ t, exec (.movRm16R16 dst src) s = .next t ∧
    (∀ r, dst = .reg r → readReg16 r t = readReg16 src s) ∧
    (∀ m, dst = .mem m → readByte (effectiveAddress m s) t = lo8 (readReg16 src s) ∧
      readByte (effectiveAddress m s + 1) t = hi8 (readReg16 src s)) ∧
    OutsideUnchanged (destinationOf (.movRm16R16 dst src) s) s t ∧ SystemUnchanged s t ∧ t.ip = s.ip

/-- 0x8A answers a next state from every state: the destination register holds the source byte. -/
def Obligations.MovR8Rm8LoadsTheSourceByte : Prop :=
  ∀ (dst : Reg8) (src : Rm8) (s : State), ∃ t, exec (.movR8Rm8 dst src) s = .next t ∧
    (∀ r, src = .reg r → readReg8 dst t = readReg8 r s) ∧
    (∀ m, src = .mem m → readReg8 dst t = readByte (effectiveAddress m s) s) ∧
    OutsideUnchanged (destinationOf (.movR8Rm8 dst src) s) s t ∧ SystemUnchanged s t ∧ t.ip = s.ip

/-- 0x8B answers a next state from every state: the destination register holds the source word, read low byte first. -/
def Obligations.MovR16Rm16LoadsTheSourceWord : Prop :=
  ∀ (dst : Reg16) (src : Rm16) (s : State), ∃ t, exec (.movR16Rm16 dst src) s = .next t ∧
    (∀ r, src = .reg r → readReg16 dst t = readReg16 r s) ∧
    (∀ m, src = .mem m → readReg16 dst t =
      joinBytes (readByte (effectiveAddress m s + 1) s) (readByte (effectiveAddress m s) s)) ∧
    OutsideUnchanged (destinationOf (.movR16Rm16 dst src) s) s t ∧ SystemUnchanged s t ∧ t.ip = s.ip

/-- An illegal opcode completes with the error's effect, from every state. That its effect is a next state with the
error in the report is the model's choice (log entries 4 and 5). -/
def Obligations.UnimplementedOpcodeReportsAndStops : Prop :=
  ∀ (op : Byte) (s : State), exec (.unimplementedOpcode op) s = .next
    { s with
      budget := 0
      mode := .idle
      report := { total := s.report.total, error := some (.unimplementedOpcode op (s.ip - 1)) } }

/-- R124: a step that runs a MOV writes its destination and ip; no other register, flag, segment register or byte. -/
def Obligations.MovWritesOnlyItsDestination : Prop :=
  ∀ (s t : State) (i : Instr) (k : Nat), DecodesAtIp s i k → (∀ op, i ≠ .unimplementedOpcode op) →
    step s = .next t →
    OutsideUnchanged (destinationOf i s) s t ∧ t.ip = s.ip + BitVec.ofNat 16 k ∧ t.flags = s.flags ∧
    t.cs = s.cs ∧ t.ds = s.ds ∧ t.ss = s.ss ∧ t.es = s.es ∧ t.config = s.config

/-- A store is seen by the next fetch when it writes the bytes there (R67 in part). -/
def Obligations.StoreIsSeenByTheNextFetch : Prop :=
  ∀ (s t : State) (m : MemOperand) (k : Nat), step s = .next t →
    (∀ src, DecodesAtIp s (.movRm8R8 (.mem m) src) k → effectiveAddress m s = t.ip →
      (fetch8 { state := t, consumed := 0 }).1 = readReg8 src s) ∧
    (∀ src, DecodesAtIp s (.movRm16R16 (.mem m) src) k → effectiveAddress m s = t.ip →
      (fetch16 { state := t, consumed := 0 }).1 = readReg16 src s)

/-! ### Flags and segment registers -/

/-- R32: flags play no part in a step and no step changes them; every hook is empty (R131); and no host operation but
reset and a write through a flag byte changes them. -/
def Obligations.FlagsAreNeitherReadNorWritten : Prop :=
  (∀ (s t : State) (f : Word), step s = .next t →
    step { s with flags := f } = .next { t with flags := f } ∧ t.flags = s.flags) ∧
  (∀ i r, flagHook i r = []) ∧
  (∀ (op : HostOp) (s : State), op ≠ .reset → (∀ b, op ≠ .setByte (.byte .flagsL) b) →
    (∀ b, op ≠ .setByte (.byte .flagsH) b) → (hostCall op s).1.flags = s.flags)

/-- Segment registers play no part in a step, not even in an address, and no step changes them (R34 in part). -/
def Obligations.SegmentRegistersAreNeitherReadNorWritten : Prop :=
  ∀ (s t : State) (cs ds ss es : Word), step s = .next t →
    step { s with cs := cs, ds := ds, ss := ss, es := es } = .next { t with cs := cs, ds := ds, ss := ss, es := es } ∧
    t.cs = s.cs ∧ t.ds = s.ds ∧ t.ss = s.ss ∧ t.es = s.es

/-- R133: `setFlag` sets its flag's bit, leaves every other bit of flags and the rest of the state alone, and so keeps
the reserved bits 0. -/
def Obligations.SetFlagWritesOneBit : Prop :=
  ∀ (f : Flag) (b : Bool) (s : State),
    getFlag f (setFlag f b s) = b ∧
    (∀ n, n ≠ flagPos f → (setFlag f b s).flags.getLsbD n = s.flags.getLsbD n) ∧
    { setFlag f b s with flags := s.flags } = s ∧
    (reservedFlagsZero s.flags = true → reservedFlagsZero (setFlag f b s).flags = true)

/-- Whatever flags a hook writes, in whatever order, the reserved bits and the rest of the state stay (R130 in part). -/
def Obligations.HooksNeverWriteReservedBits : Prop :=
  ∀ (ups : FlagUpdates) (s : State),
    (applyFlagUpdates ups s).flags &&& ~~~flagsMask = s.flags &&& ~~~flagsMask ∧
    { applyFlagUpdates ups s with flags := s.flags } = s

/-- R31: the two byte views of flags, read and written, and that no word accessor reaches flags. -/
def Obligations.FlagByteViewsDiscardReservedBits : Prop :=
  ∀ (s : State) (b : Byte),
    setByte (.byte .flagsL) b s = .ok { s with flags := (s.flags &&& 0xFF00) ||| (b.setWidth 16 &&& 0x00D5) } ∧
    setByte (.byte .flagsH) b s = .ok { s with flags := (s.flags &&& 0x00FF) ||| ((b.setWidth 16 <<< 8) &&& 0x0F00) } ∧
    getByte (.byte .flagsL) s = .ok (s.flags.setWidth 8) ∧
    getByte (.byte .flagsH) s = .ok ((s.flags >>> 8).setWidth 8) ∧
    (∀ sel v t, setWord sel v s = .ok t → t.flags = s.flags)

/-- The reference flags of an addition say what their names say: carry is unsigned overflow, overflow is signed
overflow, auxiliary carry is the carry out of the low four bits. Bound to no opcode. -/
def Obligations.AdditionFlagsAreArithmetic : Prop :=
  (∀ (a b : BitVec 8) (c : Bool),
    (addCarry a b c = true ↔ (addResult a b c).toNat ≠ a.toNat + b.toNat + carryIn c) ∧
    (addOverflow a b c = true ↔ (addResult a b c).toInt ≠ a.toInt + b.toInt + carryIn c) ∧
    (addAuxCarry a b c = true ↔ 16 ≤ a.toNat % 16 + b.toNat % 16 + carryIn c)) ∧
  (∀ (a b : BitVec 16) (c : Bool),
    (addCarry a b c = true ↔ (addResult a b c).toNat ≠ a.toNat + b.toNat + carryIn c) ∧
    (addOverflow a b c = true ↔ (addResult a b c).toInt ≠ a.toInt + b.toInt + carryIn c) ∧
    (addAuxCarry a b c = true ↔ 16 ≤ a.toNat % 16 + b.toNat % 16 + carryIn c))

/-- The reference flags of a subtraction likewise: borrow, signed overflow, borrow out of the low four bits. -/
def Obligations.SubtractionFlagsAreArithmetic : Prop :=
  (∀ (a b : BitVec 8) (c : Bool),
    (subBorrow a b c = true ↔ ((subResult a b c).toNat : Int) ≠ a.toNat - b.toNat - carryIn c) ∧
    (subOverflow a b c = true ↔ (subResult a b c).toInt ≠ a.toInt - b.toInt - carryIn c) ∧
    (subAuxCarry a b c = true ↔ a.toNat % 16 < b.toNat % 16 + carryIn c)) ∧
  (∀ (a b : BitVec 16) (c : Bool),
    (subBorrow a b c = true ↔ ((subResult a b c).toNat : Int) ≠ a.toNat - b.toNat - carryIn c) ∧
    (subOverflow a b c = true ↔ (subResult a b c).toInt ≠ a.toInt - b.toInt - carryIn c) ∧
    (subAuxCarry a b c = true ↔ a.toNat % 16 < b.toNat % 16 + carryIn c))

/-! ### Errors -/

/-- A step on an opcode byte that is not admitted, in full: ip one past it and nothing else of registers, flags and memory
(R151), budget 0 and Idle (R106). That it is a next state, and that the error and the total stand in the report, are the
model's choices (log entries 4 and 5). -/
def Obligations.UnimplementedOpcodeStepEffect : Prop :=
  ∀ s : State, admittedOpcode s.config.movLoadForms (readByte s.ip s) = none →
    step s = .next
      { s with
        ip := s.ip + 1
        budget := 0
        mode := .idle
        report := { total := s.report.total + 1, error := some (.unimplementedOpcode (readByte s.ip s) s.ip) } }

/-- R156: a step on an admitted opcode raises nothing, and any other step raises UnimplementedOpcode and nothing else. -/
def Obligations.StepRaisesOnlyUnimplementedOpcode : Prop :=
  ∀ s t : State, step s = .next t →
    ((admittedOpcode s.config.movLoadForms (readByte s.ip s)).isSome = true → t.report.error = s.report.error) ∧
    (admittedOpcode s.config.movLoadForms (readByte s.ip s) = none →
      t.report.error = some (.unimplementedOpcode (readByte s.ip s) s.ip))

/-- A reported error stays in the report over any number of steps, so a run whose last state has no error had none on
the way. The model's own field (log entry 5). -/
def Obligations.RunWithoutErrorHadNoneOnTheWay : Prop :=
  ∀ (j k : Nat) (s u t : State), Runs j s u → Runs k u t → t.NoError →
    u.NoError ∧ (0 < k → (admittedOpcode u.config.movLoadForms (readByte u.ip u)).isSome = true)

/-- R36: an accessor with a selector outside its families fails with InvalidRegister and changes nothing; inside its
families it succeeds. -/
def Obligations.AccessorsRefuseForeignSelectors : Prop :=
  ∀ (s : State) (b : Byte) (v : Word),
    (∀ r, hostCall (.getByte (.word r)) s = (s, .error (.invalidRegister (.word r))) ∧
      hostCall (.setByte (.word r) b) s = (s, .error (.invalidRegister (.word r)))) ∧
    (∀ r, hostCall (.getByte (.seg r)) s = (s, .error (.invalidRegister (.seg r))) ∧
      hostCall (.setByte (.seg r) b) s = (s, .error (.invalidRegister (.seg r)))) ∧
    (∀ r, hostCall (.getWord (.byte r)) s = (s, .error (.invalidRegister (.byte r))) ∧
      hostCall (.setWord (.byte r) v) s = (s, .error (.invalidRegister (.byte r)))) ∧
    (∀ r, (∃ x, hostCall (.getByte (.byte r)) s = (s, .byte x)) ∧ (hostCall (.setByte (.byte r) b) s).2 = .done) ∧
    (∀ r, (∃ x, hostCall (.getWord (.word r)) s = (s, .word x)) ∧ (hostCall (.setWord (.word r) v) s).2 = .done) ∧
    (∀ r, (∃ x, hostCall (.getWord (.seg r)) s = (s, .word x)) ∧ (hostCall (.setWord (.seg r) v) s).2 = .done)

/-- What the host writes it reads back, through every selector but the two masked flag bytes, and a word or segment
register it did not name reads as before (R37 in part). -/
def Obligations.HostWritesReadBack : Prop :=
  (∀ (s t : State) (r : Reg8) (b : Byte), setByte (.byte (.reg r)) b s = .ok t →
    getByte (.byte (.reg r)) t = .ok b ∧
    (∀ x, x ≠ .reg r → getByte (.byte x) t = getByte (.byte x) s) ∧
    (∀ x, getWord (.seg x) t = getWord (.seg x) s) ∧ getWord (.word .ip) t = getWord (.word .ip) s) ∧
  (∀ (s t : State) (sel : Selector) (v : Word), setWord sel v s = .ok t →
    getWord sel t = .ok v ∧ (∀ x, x ≠ sel → getWord x t = getWord x s) ∧ MemoryUnchanged s t)

/-! ### The engine -/

/-- R105: what an instruction does to registers, flags and memory does not depend on the budget, the mode or the report;
the budget then saturates at 0, and Running ends when none is left. A budget of 1 runs one whole instruction. -/
def Obligations.BudgetIsTestedOnlyBetweenInstructions : Prop :=
  (∀ (s t : State) (n : Nat) (m : Mode) (r : Report), step s = .next t →
    ∃ t', step { s with budget := n, mode := m, report := r } = .next t' ∧
      { t' with budget := t.budget, mode := t.mode, report := t.report } = t) ∧
  (∀ s t : State, (admittedOpcode s.config.movLoadForms (readByte s.ip s)).isSome = true → step s = .next t →
    t.budget = s.budget - cyclesOf s ∧
    t.mode = if s.mode = .running ∧ 0 < s.budget - cyclesOf s then .running else .idle) ∧
  (∀ s : State, (admittedOpcode s.config.movLoadForms (readByte s.ip s)).isSome = true →
    hostCall (.execute 1) s = (hostExecute 1 s, .ok (cyclesOf s)) ∧ (hostExecute 1 s).budget = 0)

/-- R109: `execute(0)` fetches nothing. The cleared report is the model's own field (log entry 5). -/
def Obligations.ExecuteZeroChangesNothing : Prop :=
  ∀ s : State, hostCall (.execute 0) s = ({ s with mode := .idle, budget := 0, report := .empty }, .ok 0)

/-- R111: `execute(n)` ends within `n` steps, Idle and with the budget spent: more steps allowed change nothing. A step
spends a unit at least, and a completed one two. -/
def Obligations.ExecuteEndsWithinItsBudget : Prop :=
  (∀ (n extra : Nat) (s : State),
    (hostExecute n s).mode = .idle ∧ (hostExecute n s).budget = 0 ∧
    runLoop (n + extra) (beginExecute n s) = hostExecute n s) ∧
  (∀ s t : State, step s = .next t →
    s.report.total + 1 ≤ t.report.total ∧
    ((admittedOpcode s.config.movLoadForms (readByte s.ip s)).isSome = true → s.report.total + 2 ≤ t.report.total))

/-- What `execute(n)` returns: without an error the budget is met and overrun by at most three units, less than the
longest instruction; with one,
at most the budget was spent and the error is UnimplementedOpcode (R105, R106, R114 in part). -/
def Obligations.ExecuteAccountsForItsCycles : Prop :=
  ∀ (n : Nat) (s : State),
    (∀ total, (hostCall (.execute n) s).2 = .ok total → n ≤ total ∧ total ≤ n + 3 ∧ (n = 0 → total = 0)) ∧
    (∀ e total, (hostCall (.execute n) s).2 = .runError e total →
      1 ≤ total ∧ total ≤ n ∧ ∃ op addr, e = .unimplementedOpcode op addr)

/-- A run may be cut at an instruction boundary: where `execute(n)` spends exactly `n`, `execute(n + m)` leaves what
`execute(n)` and then `execute(m)` leave, and its total is the sum (R114 in part). -/
def Obligations.ExecuteSplitsAtInstructionBoundaries : Prop :=
  ∀ (n m : Nat) (s : State), (hostExecute n s).report = { total := n, error := none } →
    hostExecute (n + m) s =
      { hostExecute m (hostExecute n s) with
        report := { total := n + (hostExecute m (hostExecute n s)).report.total,
                    error := (hostExecute m (hostExecute n s)).report.error } }

/-- R108: the host's `step()` runs one instruction whatever the budget, takes its cycles from the budget, leaves the
engine Idle and returns the count or the error. -/
def Obligations.HostStepRunsOneInstruction : Prop :=
  ∀ s : State, ∃ t, step (beginStep s) = .next t ∧ (hostCall .step s).1 = t ∧ t.mode = .idle ∧
    ((admittedOpcode s.config.movLoadForms (readByte s.ip s)).isSome = true →
      (hostCall .step s).2 = .ok (cyclesOf s) ∧ t.budget = s.budget - cyclesOf s) ∧
    (admittedOpcode s.config.movLoadForms (readByte s.ip s) = none →
      (hostCall .step s).2 = .error (.unimplementedOpcode (readByte s.ip s) s.ip) ∧ t.budget = 0) ∧
    (s.budget = 0 → t.budget = 0)

/-! ### The invariant -/

/-- The state after reset meets the invariant, in every build. -/
def Obligations.ResetMeetsTheInvariant : Prop :=
  (∀ c : Config, (State.resetWith c).Inv) ∧ State.reset.Inv

/-- Every step keeps the invariant: memory stays in canonical form (log entry 9), the reserved flag bits stay 0 (R30),
and the engine is Running exactly while budget is left (R39). -/
def Obligations.StepKeepsTheInvariant : Prop :=
  ∀ s t : State, s.Inv → step s = .next t → t.Inv

/-- Every host operation keeps the invariant and leaves the engine Idle, as it found it: the host acts only between calls
of `execute` (R39, R163). -/
def Obligations.HostOperationsKeepTheInvariant : Prop :=
  ∀ (op : HostOp) (s : State), s.Inv → s.mode = .idle →
    (hostCall op s).1.Inv ∧ (hostCall op s).1.mode = .idle ∧ (hostCall op s).1.config = s.config
end

