-- ==== Sys2Proof/Laws/Bits.lean ====
section
/-! SUPPORT. Splitting a word into its bytes and joining them again (R10, R22). -/

namespace Sys2Proof

/-- The number a joined word is (R10). -/
theorem joinBytes_toNat (hi lo : Byte) : (joinBytes hi lo).toNat = hi.toNat * 256 + lo.toNat := by
  have hlo := lo.isLt
  have h : (joinBytes hi lo).toNat = hi.toNat <<< 8 ||| lo.toNat := BitVec.toNat_append hi lo
  rw [h, Nat.shiftLeft_eq, Nat.mul_comm, ← Nat.two_pow_add_eq_or_of_lt hlo hi.toNat]

theorem lo8_toNat (v : Word) : (lo8 v).toNat = v.toNat % 256 := by
  simp [lo8, BitVec.extractLsb'_toNat]

theorem hi8_toNat (v : Word) : (hi8 v).toNat = v.toNat / 256 := by
  have := v.isLt
  simp [hi8, BitVec.extractLsb'_toNat, Nat.shiftRight_eq_div_pow]
  omega

@[simp] theorem lo8_joinBytes (hi lo : Byte) : lo8 (joinBytes hi lo) = lo := by
  have := lo.isLt
  apply BitVec.eq_of_toNat_eq
  rw [lo8_toNat, joinBytes_toNat]
  omega

@[simp] theorem hi8_joinBytes (hi lo : Byte) : hi8 (joinBytes hi lo) = hi := by
  have := lo.isLt
  apply BitVec.eq_of_toNat_eq
  rw [hi8_toNat, joinBytes_toNat]
  omega

@[simp] theorem joinBytes_hi8_lo8 (v : Word) : joinBytes (hi8 v) (lo8 v) = v := by
  apply BitVec.eq_of_toNat_eq
  rw [joinBytes_toNat, hi8_toNat, lo8_toNat]
  omega

end Sys2Proof
end

