-- ==== Sys2Proof/Laws/Decode.lean ====
section
/-! SUPPORT. The fields of a ModRM byte and the register and base tables, there and back (R24, R75, R80). -/

namespace Sys2Proof

@[simp] theorem modField_modrmByte (mod : BitVec 2) (reg rm : BitVec 3) : modField (modrmByte mod reg rm) = mod := by
  revert mod reg rm; decide

@[simp] theorem regField_modrmByte (mod : BitVec 2) (reg rm : BitVec 3) : regField (modrmByte mod reg rm) = reg := by
  revert mod reg rm; decide

@[simp] theorem rmField_modrmByte (mod : BitVec 2) (reg rm : BitVec 3) : rmField (modrmByte mod reg rm) = rm := by
  revert mod reg rm; decide

/-- A ModRM byte is its three fields (R75). -/
theorem modrmByte_fields (b : Byte) : modrmByte (modField b) (regField b) (rmField b) = b := by
  revert b; decide

@[simp] theorem reg8OfField_fieldOfReg8 (r : Reg8) : reg8OfField (fieldOfReg8 r) = r := by cases r <;> rfl

@[simp] theorem reg16OfField_fieldOfReg16 (r : Reg16) : reg16OfField (fieldOfReg16 r) = r := by cases r <;> rfl

@[simp] theorem baseOfField_fieldOfBase (b : Base) : baseOfField (fieldOfBase b) = b := by cases b <;> rfl

@[simp] theorem fieldOfReg8_reg8OfField (n : BitVec 3) : fieldOfReg8 (reg8OfField n) = n := by revert n; decide

@[simp] theorem fieldOfReg16_reg16OfField (n : BitVec 3) : fieldOfReg16 (reg16OfField n) = n := by revert n; decide

@[simp] theorem fieldOfBase_baseOfField (n : BitVec 3) : fieldOfBase (baseOfField n) = n := by revert n; decide

/-- The admitted opcodes are the bytes of R86. -/
theorem admittedOpcode_eq_some {loads : Bool} {b : Byte} {o : Opcode} (h : admittedOpcode loads b = some o) : b = opcodeByte o := by
  unfold admittedOpcode at h
  split at h
  · cases h; assumption
  split at h
  · cases h; assumption
  split at h
  · cases h; rename_i hb; exact hb.2
  split at h
  · cases h; rename_i hb; exact hb.2
  · cases h

end Sys2Proof
end

