-- ==== Sys2Proof/Laws/State.lean ====
section
/-! SUPPORT. The fields of the state after each named update: what each leaves alone, and what it writes. -/

namespace Sys2Proof.Machine

variable (s : State)

/-! A byte store writes memory only (R53). -/

@[simp] theorem storeByte_gprA (a : Word) (b : Byte) : (storeByte a b s).gprA = s.gprA := rfl
@[simp] theorem storeByte_gprC (a : Word) (b : Byte) : (storeByte a b s).gprC = s.gprC := rfl
@[simp] theorem storeByte_gprD (a : Word) (b : Byte) : (storeByte a b s).gprD = s.gprD := rfl
@[simp] theorem storeByte_gprB (a : Word) (b : Byte) : (storeByte a b s).gprB = s.gprB := rfl
@[simp] theorem storeByte_sp (a : Word) (b : Byte) : (storeByte a b s).sp = s.sp := rfl
@[simp] theorem storeByte_bp (a : Word) (b : Byte) : (storeByte a b s).bp = s.bp := rfl
@[simp] theorem storeByte_si (a : Word) (b : Byte) : (storeByte a b s).si = s.si := rfl
@[simp] theorem storeByte_di (a : Word) (b : Byte) : (storeByte a b s).di = s.di := rfl
@[simp] theorem storeByte_ip (a : Word) (b : Byte) : (storeByte a b s).ip = s.ip := rfl
@[simp] theorem storeByte_flags (a : Word) (b : Byte) : (storeByte a b s).flags = s.flags := rfl
@[simp] theorem storeByte_cs (a : Word) (b : Byte) : (storeByte a b s).cs = s.cs := rfl
@[simp] theorem storeByte_ds (a : Word) (b : Byte) : (storeByte a b s).ds = s.ds := rfl
@[simp] theorem storeByte_ss (a : Word) (b : Byte) : (storeByte a b s).ss = s.ss := rfl
@[simp] theorem storeByte_es (a : Word) (b : Byte) : (storeByte a b s).es = s.es := rfl
@[simp] theorem storeByte_mode (a : Word) (b : Byte) : (storeByte a b s).mode = s.mode := rfl
@[simp] theorem storeByte_budget (a : Word) (b : Byte) : (storeByte a b s).budget = s.budget := rfl
@[simp] theorem storeByte_config (a : Word) (b : Byte) : (storeByte a b s).config = s.config := rfl
@[simp] theorem storeByte_report (a : Word) (b : Byte) : (storeByte a b s).report = s.report := rfl

/-! A word store writes memory only (R55). -/

@[simp] theorem storeWord_gprA (a v : Word) : (storeWord a v s).gprA = s.gprA := rfl
@[simp] theorem storeWord_gprC (a v : Word) : (storeWord a v s).gprC = s.gprC := rfl
@[simp] theorem storeWord_gprD (a v : Word) : (storeWord a v s).gprD = s.gprD := rfl
@[simp] theorem storeWord_gprB (a v : Word) : (storeWord a v s).gprB = s.gprB := rfl
@[simp] theorem storeWord_sp (a v : Word) : (storeWord a v s).sp = s.sp := rfl
@[simp] theorem storeWord_bp (a v : Word) : (storeWord a v s).bp = s.bp := rfl
@[simp] theorem storeWord_si (a v : Word) : (storeWord a v s).si = s.si := rfl
@[simp] theorem storeWord_di (a v : Word) : (storeWord a v s).di = s.di := rfl
@[simp] theorem storeWord_ip (a v : Word) : (storeWord a v s).ip = s.ip := rfl
@[simp] theorem storeWord_flags (a v : Word) : (storeWord a v s).flags = s.flags := rfl
@[simp] theorem storeWord_cs (a v : Word) : (storeWord a v s).cs = s.cs := rfl
@[simp] theorem storeWord_ds (a v : Word) : (storeWord a v s).ds = s.ds := rfl
@[simp] theorem storeWord_ss (a v : Word) : (storeWord a v s).ss = s.ss := rfl
@[simp] theorem storeWord_es (a v : Word) : (storeWord a v s).es = s.es := rfl
@[simp] theorem storeWord_mode (a v : Word) : (storeWord a v s).mode = s.mode := rfl
@[simp] theorem storeWord_budget (a v : Word) : (storeWord a v s).budget = s.budget := rfl
@[simp] theorem storeWord_config (a v : Word) : (storeWord a v s).config = s.config := rfl
@[simp] theorem storeWord_report (a v : Word) : (storeWord a v s).report = s.report := rfl

/-! Writing ip writes nothing else. -/

@[simp] theorem setIp_gprA (v : Word) : (setIp v s).gprA = s.gprA := rfl
@[simp] theorem setIp_gprC (v : Word) : (setIp v s).gprC = s.gprC := rfl
@[simp] theorem setIp_gprD (v : Word) : (setIp v s).gprD = s.gprD := rfl
@[simp] theorem setIp_gprB (v : Word) : (setIp v s).gprB = s.gprB := rfl
@[simp] theorem setIp_sp (v : Word) : (setIp v s).sp = s.sp := rfl
@[simp] theorem setIp_bp (v : Word) : (setIp v s).bp = s.bp := rfl
@[simp] theorem setIp_si (v : Word) : (setIp v s).si = s.si := rfl
@[simp] theorem setIp_di (v : Word) : (setIp v s).di = s.di := rfl
@[simp] theorem setIp_flags (v : Word) : (setIp v s).flags = s.flags := rfl
@[simp] theorem setIp_cs (v : Word) : (setIp v s).cs = s.cs := rfl
@[simp] theorem setIp_ds (v : Word) : (setIp v s).ds = s.ds := rfl
@[simp] theorem setIp_ss (v : Word) : (setIp v s).ss = s.ss := rfl
@[simp] theorem setIp_es (v : Word) : (setIp v s).es = s.es := rfl
@[simp] theorem setIp_mem (v : Word) : (setIp v s).mem = s.mem := rfl
@[simp] theorem setIp_mode (v : Word) : (setIp v s).mode = s.mode := rfl
@[simp] theorem setIp_budget (v : Word) : (setIp v s).budget = s.budget := rfl
@[simp] theorem setIp_config (v : Word) : (setIp v s).config = s.config := rfl
@[simp] theorem setIp_report (v : Word) : (setIp v s).report = s.report := rfl

/-! A byte-register write stays inside the general-purpose registers (R22, R25). -/

@[simp] theorem writeReg8_sp (r : Reg8) (b : Byte) : (writeReg8 r b s).sp = s.sp := by cases r <;> rfl
@[simp] theorem writeReg8_bp (r : Reg8) (b : Byte) : (writeReg8 r b s).bp = s.bp := by cases r <;> rfl
@[simp] theorem writeReg8_si (r : Reg8) (b : Byte) : (writeReg8 r b s).si = s.si := by cases r <;> rfl
@[simp] theorem writeReg8_di (r : Reg8) (b : Byte) : (writeReg8 r b s).di = s.di := by cases r <;> rfl
@[simp] theorem writeReg8_ip (r : Reg8) (b : Byte) : (writeReg8 r b s).ip = s.ip := by cases r <;> rfl
@[simp] theorem writeReg8_flags (r : Reg8) (b : Byte) : (writeReg8 r b s).flags = s.flags := by cases r <;> rfl
@[simp] theorem writeReg8_cs (r : Reg8) (b : Byte) : (writeReg8 r b s).cs = s.cs := by cases r <;> rfl
@[simp] theorem writeReg8_ds (r : Reg8) (b : Byte) : (writeReg8 r b s).ds = s.ds := by cases r <;> rfl
@[simp] theorem writeReg8_ss (r : Reg8) (b : Byte) : (writeReg8 r b s).ss = s.ss := by cases r <;> rfl
@[simp] theorem writeReg8_es (r : Reg8) (b : Byte) : (writeReg8 r b s).es = s.es := by cases r <;> rfl
@[simp] theorem writeReg8_mem (r : Reg8) (b : Byte) : (writeReg8 r b s).mem = s.mem := by cases r <;> rfl
@[simp] theorem writeReg8_mode (r : Reg8) (b : Byte) : (writeReg8 r b s).mode = s.mode := by cases r <;> rfl
@[simp] theorem writeReg8_budget (r : Reg8) (b : Byte) : (writeReg8 r b s).budget = s.budget := by cases r <;> rfl
@[simp] theorem writeReg8_config (r : Reg8) (b : Byte) : (writeReg8 r b s).config = s.config := by cases r <;> rfl
@[simp] theorem writeReg8_report (r : Reg8) (b : Byte) : (writeReg8 r b s).report = s.report := by cases r <;> rfl

/-! A word-register write stays inside the general-purpose and pointer registers. -/

@[simp] theorem writeReg16_ip (r : Reg16) (v : Word) : (writeReg16 r v s).ip = s.ip := by cases r <;> rfl
@[simp] theorem writeReg16_flags (r : Reg16) (v : Word) : (writeReg16 r v s).flags = s.flags := by cases r <;> rfl
@[simp] theorem writeReg16_cs (r : Reg16) (v : Word) : (writeReg16 r v s).cs = s.cs := by cases r <;> rfl
@[simp] theorem writeReg16_ds (r : Reg16) (v : Word) : (writeReg16 r v s).ds = s.ds := by cases r <;> rfl
@[simp] theorem writeReg16_ss (r : Reg16) (v : Word) : (writeReg16 r v s).ss = s.ss := by cases r <;> rfl
@[simp] theorem writeReg16_es (r : Reg16) (v : Word) : (writeReg16 r v s).es = s.es := by cases r <;> rfl
@[simp] theorem writeReg16_mem (r : Reg16) (v : Word) : (writeReg16 r v s).mem = s.mem := by cases r <;> rfl
@[simp] theorem writeReg16_mode (r : Reg16) (v : Word) : (writeReg16 r v s).mode = s.mode := by cases r <;> rfl
@[simp] theorem writeReg16_budget (r : Reg16) (v : Word) : (writeReg16 r v s).budget = s.budget := by cases r <;> rfl
@[simp] theorem writeReg16_config (r : Reg16) (v : Word) : (writeReg16 r v s).config = s.config := by cases r <;> rfl
@[simp] theorem writeReg16_report (r : Reg16) (v : Word) : (writeReg16 r v s).report = s.report := by cases r <;> rfl

/-! A segment-register write stays inside the segment registers. -/

@[simp] theorem writeSeg_gprA (r : SegSel) (v : Word) : (writeSeg r v s).gprA = s.gprA := by cases r <;> rfl
@[simp] theorem writeSeg_gprC (r : SegSel) (v : Word) : (writeSeg r v s).gprC = s.gprC := by cases r <;> rfl
@[simp] theorem writeSeg_gprD (r : SegSel) (v : Word) : (writeSeg r v s).gprD = s.gprD := by cases r <;> rfl
@[simp] theorem writeSeg_gprB (r : SegSel) (v : Word) : (writeSeg r v s).gprB = s.gprB := by cases r <;> rfl
@[simp] theorem writeSeg_sp (r : SegSel) (v : Word) : (writeSeg r v s).sp = s.sp := by cases r <;> rfl
@[simp] theorem writeSeg_bp (r : SegSel) (v : Word) : (writeSeg r v s).bp = s.bp := by cases r <;> rfl
@[simp] theorem writeSeg_si (r : SegSel) (v : Word) : (writeSeg r v s).si = s.si := by cases r <;> rfl
@[simp] theorem writeSeg_di (r : SegSel) (v : Word) : (writeSeg r v s).di = s.di := by cases r <;> rfl
@[simp] theorem writeSeg_ip (r : SegSel) (v : Word) : (writeSeg r v s).ip = s.ip := by cases r <;> rfl
@[simp] theorem writeSeg_flags (r : SegSel) (v : Word) : (writeSeg r v s).flags = s.flags := by cases r <;> rfl
@[simp] theorem writeSeg_mem (r : SegSel) (v : Word) : (writeSeg r v s).mem = s.mem := by cases r <;> rfl
@[simp] theorem writeSeg_mode (r : SegSel) (v : Word) : (writeSeg r v s).mode = s.mode := by cases r <;> rfl
@[simp] theorem writeSeg_budget (r : SegSel) (v : Word) : (writeSeg r v s).budget = s.budget := by cases r <;> rfl
@[simp] theorem writeSeg_config (r : SegSel) (v : Word) : (writeSeg r v s).config = s.config := by cases r <;> rfl
@[simp] theorem writeSeg_report (r : SegSel) (v : Word) : (writeSeg r v s).report = s.report := by cases r <;> rfl

/-! `setFlag` writes flags only (R133). -/

@[simp] theorem setFlag_gprA (f : Flag) (b : Bool) : (setFlag f b s).gprA = s.gprA := rfl
@[simp] theorem setFlag_gprC (f : Flag) (b : Bool) : (setFlag f b s).gprC = s.gprC := rfl
@[simp] theorem setFlag_gprD (f : Flag) (b : Bool) : (setFlag f b s).gprD = s.gprD := rfl
@[simp] theorem setFlag_gprB (f : Flag) (b : Bool) : (setFlag f b s).gprB = s.gprB := rfl
@[simp] theorem setFlag_sp (f : Flag) (b : Bool) : (setFlag f b s).sp = s.sp := rfl
@[simp] theorem setFlag_bp (f : Flag) (b : Bool) : (setFlag f b s).bp = s.bp := rfl
@[simp] theorem setFlag_si (f : Flag) (b : Bool) : (setFlag f b s).si = s.si := rfl
@[simp] theorem setFlag_di (f : Flag) (b : Bool) : (setFlag f b s).di = s.di := rfl
@[simp] theorem setFlag_ip (f : Flag) (b : Bool) : (setFlag f b s).ip = s.ip := rfl
@[simp] theorem setFlag_cs (f : Flag) (b : Bool) : (setFlag f b s).cs = s.cs := rfl
@[simp] theorem setFlag_ds (f : Flag) (b : Bool) : (setFlag f b s).ds = s.ds := rfl
@[simp] theorem setFlag_ss (f : Flag) (b : Bool) : (setFlag f b s).ss = s.ss := rfl
@[simp] theorem setFlag_es (f : Flag) (b : Bool) : (setFlag f b s).es = s.es := rfl
@[simp] theorem setFlag_mem (f : Flag) (b : Bool) : (setFlag f b s).mem = s.mem := rfl
@[simp] theorem setFlag_mode (f : Flag) (b : Bool) : (setFlag f b s).mode = s.mode := rfl
@[simp] theorem setFlag_budget (f : Flag) (b : Bool) : (setFlag f b s).budget = s.budget := rfl
@[simp] theorem setFlag_config (f : Flag) (b : Bool) : (setFlag f b s).config = s.config := rfl
@[simp] theorem setFlag_report (f : Flag) (b : Bool) : (setFlag f b s).report = s.report := rfl

/-! A FLAGS_L write writes flags only (R31). -/

@[simp] theorem writeFlagsL_gprA (b : Byte) : (writeFlagsL b s).gprA = s.gprA := rfl
@[simp] theorem writeFlagsL_gprC (b : Byte) : (writeFlagsL b s).gprC = s.gprC := rfl
@[simp] theorem writeFlagsL_gprD (b : Byte) : (writeFlagsL b s).gprD = s.gprD := rfl
@[simp] theorem writeFlagsL_gprB (b : Byte) : (writeFlagsL b s).gprB = s.gprB := rfl
@[simp] theorem writeFlagsL_sp (b : Byte) : (writeFlagsL b s).sp = s.sp := rfl
@[simp] theorem writeFlagsL_bp (b : Byte) : (writeFlagsL b s).bp = s.bp := rfl
@[simp] theorem writeFlagsL_si (b : Byte) : (writeFlagsL b s).si = s.si := rfl
@[simp] theorem writeFlagsL_di (b : Byte) : (writeFlagsL b s).di = s.di := rfl
@[simp] theorem writeFlagsL_ip (b : Byte) : (writeFlagsL b s).ip = s.ip := rfl
@[simp] theorem writeFlagsL_cs (b : Byte) : (writeFlagsL b s).cs = s.cs := rfl
@[simp] theorem writeFlagsL_ds (b : Byte) : (writeFlagsL b s).ds = s.ds := rfl
@[simp] theorem writeFlagsL_ss (b : Byte) : (writeFlagsL b s).ss = s.ss := rfl
@[simp] theorem writeFlagsL_es (b : Byte) : (writeFlagsL b s).es = s.es := rfl
@[simp] theorem writeFlagsL_mem (b : Byte) : (writeFlagsL b s).mem = s.mem := rfl
@[simp] theorem writeFlagsL_mode (b : Byte) : (writeFlagsL b s).mode = s.mode := rfl
@[simp] theorem writeFlagsL_budget (b : Byte) : (writeFlagsL b s).budget = s.budget := rfl
@[simp] theorem writeFlagsL_config (b : Byte) : (writeFlagsL b s).config = s.config := rfl
@[simp] theorem writeFlagsL_report (b : Byte) : (writeFlagsL b s).report = s.report := rfl

/-! A FLAGS_H write writes flags only (R31). -/

@[simp] theorem writeFlagsH_gprA (b : Byte) : (writeFlagsH b s).gprA = s.gprA := rfl
@[simp] theorem writeFlagsH_gprC (b : Byte) : (writeFlagsH b s).gprC = s.gprC := rfl
@[simp] theorem writeFlagsH_gprD (b : Byte) : (writeFlagsH b s).gprD = s.gprD := rfl
@[simp] theorem writeFlagsH_gprB (b : Byte) : (writeFlagsH b s).gprB = s.gprB := rfl
@[simp] theorem writeFlagsH_sp (b : Byte) : (writeFlagsH b s).sp = s.sp := rfl
@[simp] theorem writeFlagsH_bp (b : Byte) : (writeFlagsH b s).bp = s.bp := rfl
@[simp] theorem writeFlagsH_si (b : Byte) : (writeFlagsH b s).si = s.si := rfl
@[simp] theorem writeFlagsH_di (b : Byte) : (writeFlagsH b s).di = s.di := rfl
@[simp] theorem writeFlagsH_ip (b : Byte) : (writeFlagsH b s).ip = s.ip := rfl
@[simp] theorem writeFlagsH_cs (b : Byte) : (writeFlagsH b s).cs = s.cs := rfl
@[simp] theorem writeFlagsH_ds (b : Byte) : (writeFlagsH b s).ds = s.ds := rfl
@[simp] theorem writeFlagsH_ss (b : Byte) : (writeFlagsH b s).ss = s.ss := rfl
@[simp] theorem writeFlagsH_es (b : Byte) : (writeFlagsH b s).es = s.es := rfl
@[simp] theorem writeFlagsH_mem (b : Byte) : (writeFlagsH b s).mem = s.mem := rfl
@[simp] theorem writeFlagsH_mode (b : Byte) : (writeFlagsH b s).mode = s.mode := rfl
@[simp] theorem writeFlagsH_budget (b : Byte) : (writeFlagsH b s).budget = s.budget := rfl
@[simp] theorem writeFlagsH_config (b : Byte) : (writeFlagsH b s).config = s.config := rfl
@[simp] theorem writeFlagsH_report (b : Byte) : (writeFlagsH b s).report = s.report := rfl

/-! Raising an error touches the engine's state and the report only (R106, R155). -/

@[simp] theorem raiseError_gprA (e : Fault) : (raiseError e s).gprA = s.gprA := rfl
@[simp] theorem raiseError_gprC (e : Fault) : (raiseError e s).gprC = s.gprC := rfl
@[simp] theorem raiseError_gprD (e : Fault) : (raiseError e s).gprD = s.gprD := rfl
@[simp] theorem raiseError_gprB (e : Fault) : (raiseError e s).gprB = s.gprB := rfl
@[simp] theorem raiseError_sp (e : Fault) : (raiseError e s).sp = s.sp := rfl
@[simp] theorem raiseError_bp (e : Fault) : (raiseError e s).bp = s.bp := rfl
@[simp] theorem raiseError_si (e : Fault) : (raiseError e s).si = s.si := rfl
@[simp] theorem raiseError_di (e : Fault) : (raiseError e s).di = s.di := rfl
@[simp] theorem raiseError_ip (e : Fault) : (raiseError e s).ip = s.ip := rfl
@[simp] theorem raiseError_flags (e : Fault) : (raiseError e s).flags = s.flags := rfl
@[simp] theorem raiseError_cs (e : Fault) : (raiseError e s).cs = s.cs := rfl
@[simp] theorem raiseError_ds (e : Fault) : (raiseError e s).ds = s.ds := rfl
@[simp] theorem raiseError_ss (e : Fault) : (raiseError e s).ss = s.ss := rfl
@[simp] theorem raiseError_es (e : Fault) : (raiseError e s).es = s.es := rfl
@[simp] theorem raiseError_mem (e : Fault) : (raiseError e s).mem = s.mem := rfl
@[simp] theorem raiseError_config (e : Fault) : (raiseError e s).config = s.config := rfl

/-! Cycle accounting touches the engine's state and the report only (R104). -/

@[simp] theorem chargeCycles_gprA (k : Nat) : (chargeCycles k s).gprA = s.gprA := rfl
@[simp] theorem chargeCycles_gprC (k : Nat) : (chargeCycles k s).gprC = s.gprC := rfl
@[simp] theorem chargeCycles_gprD (k : Nat) : (chargeCycles k s).gprD = s.gprD := rfl
@[simp] theorem chargeCycles_gprB (k : Nat) : (chargeCycles k s).gprB = s.gprB := rfl
@[simp] theorem chargeCycles_sp (k : Nat) : (chargeCycles k s).sp = s.sp := rfl
@[simp] theorem chargeCycles_bp (k : Nat) : (chargeCycles k s).bp = s.bp := rfl
@[simp] theorem chargeCycles_si (k : Nat) : (chargeCycles k s).si = s.si := rfl
@[simp] theorem chargeCycles_di (k : Nat) : (chargeCycles k s).di = s.di := rfl
@[simp] theorem chargeCycles_ip (k : Nat) : (chargeCycles k s).ip = s.ip := rfl
@[simp] theorem chargeCycles_flags (k : Nat) : (chargeCycles k s).flags = s.flags := rfl
@[simp] theorem chargeCycles_cs (k : Nat) : (chargeCycles k s).cs = s.cs := rfl
@[simp] theorem chargeCycles_ds (k : Nat) : (chargeCycles k s).ds = s.ds := rfl
@[simp] theorem chargeCycles_ss (k : Nat) : (chargeCycles k s).ss = s.ss := rfl
@[simp] theorem chargeCycles_es (k : Nat) : (chargeCycles k s).es = s.es := rfl
@[simp] theorem chargeCycles_mem (k : Nat) : (chargeCycles k s).mem = s.mem := rfl
@[simp] theorem chargeCycles_config (k : Nat) : (chargeCycles k s).config = s.config := rfl

/-! What each update writes. -/

@[simp] theorem storeByte_mem (a : Word) (b : Byte) : (storeByte a b s).mem = s.mem.write a.toNat b := rfl
@[simp] theorem setIp_ip (v : Word) : (setIp v s).ip = v := rfl
@[simp] theorem setIp_setIp (v w : Word) : setIp v (setIp w s) = setIp v s := rfl
@[simp] theorem setIp_self : setIp s.ip s = s := rfl
@[simp] theorem setFlag_flags (f : Flag) (b : Bool) : (setFlag f b s).flags = putBit s.flags (flagPos f) b := rfl
@[simp] theorem raiseError_mode (e : Fault) : (raiseError e s).mode = .idle := rfl
@[simp] theorem raiseError_budget (e : Fault) : (raiseError e s).budget = 0 := rfl
@[simp] theorem raiseError_error (e : Fault) : (raiseError e s).report.error = some e := rfl
@[simp] theorem raiseError_total (e : Fault) : (raiseError e s).report.total = s.report.total := rfl
@[simp] theorem chargeCycles_budget (k : Nat) : (chargeCycles k s).budget = s.budget - k := rfl
@[simp] theorem chargeCycles_error (k : Nat) : (chargeCycles k s).report.error = s.report.error := rfl
@[simp] theorem chargeCycles_total (k : Nat) : (chargeCycles k s).report.total = s.report.total + k := rfl
theorem chargeCycles_mode (k : Nat) :
    (chargeCycles k s).mode = if s.mode = .running ∧ 0 < s.budget - k then .running else .idle := rfl

end Sys2Proof.Machine
end

