-- ==== Sys2Proof/Laws/Memory.lean ====
section
/-! SUPPORT. The laws of memory: read after write, and the canonical form (R52 to R55, log entry 9). -/

namespace Sys2Proof.Machine

/-! ### The list -/

@[simp] theorem lookup_nil (a : Nat) : Memory.lookup [] a = unlistedByte := rfl

theorem lookup_erase_same (m : Memory) (a : Nat) : (m.erase a).lookup a = unlistedByte := by
  induction m with
  | nil => rfl
  | cons c rest ih =>
    by_cases h : c.1 = a
    · simpa [Memory.erase, h] using ih
    · simpa [Memory.erase, Memory.lookup, h] using ih

theorem lookup_erase_other (m : Memory) {a x : Nat} (h : x ≠ a) : (m.erase a).lookup x = m.lookup x := by
  induction m with
  | nil => rfl
  | cons c rest ih =>
    by_cases hc : c.1 = a
    · have : c.1 ≠ x := fun e => h (e.symm.trans hc)
      simpa [Memory.erase, Memory.lookup, hc, this, Ne.symm h] using ih
    · simp [Memory.erase, Memory.lookup, hc, ih]

/-- Erasing leaves no entry at the address. -/
theorem erase_keys_ne (m : Memory) (a : Nat) : ∀ c ∈ m.erase a, c.1 ≠ a := by
  induction m with
  | nil => simp [Memory.erase]
  | cons c rest ih =>
    by_cases h : c.1 = a
    · simpa [Memory.erase, h] using ih
    · simpa [Memory.erase, h] using ih

theorem lookup_insert_same (m : Memory) (a : Nat) (b : Byte) (h : ∀ c ∈ m, c.1 ≠ a) :
    (Memory.insert a b m).lookup a = b := by
  induction m with
  | nil => simp [Memory.insert, Memory.lookup]
  | cons c rest ih =>
    have hc : c.1 ≠ a := h c (by simp)
    have ih := ih fun d hd => h d (by simp [hd])
    by_cases hl : a < c.1
    · simp [Memory.insert, Memory.lookup, hl]
    · simpa [Memory.insert, Memory.lookup, hl, hc] using ih

theorem lookup_insert_other (m : Memory) {a x : Nat} (b : Byte) (h : x ≠ a) :
    (Memory.insert a b m).lookup x = m.lookup x := by
  induction m with
  | nil => simp [Memory.insert, Memory.lookup, Ne.symm h]
  | cons c rest ih =>
    by_cases hl : a < c.1
    · simp [Memory.insert, Memory.lookup, hl, Ne.symm h]
    · simp [Memory.insert, Memory.lookup, hl, ih]

/-- What a write does to every address of the list. -/
theorem lookup_write (m : Memory) (a x : Nat) (b : Byte) :
    (m.write a b).lookup x = if x = a then b else m.lookup x := by
  by_cases hb : b = unlistedByte
  · by_cases hx : x = a
    · subst hx; simp [Memory.write, hb, lookup_erase_same]
    · simp [Memory.write, hb, hx, lookup_erase_other m hx]
  · by_cases hx : x = a
    · subst hx; simp [Memory.write, hb, lookup_insert_same _ _ _ (erase_keys_ne m x)]
    · simp [Memory.write, hb, hx, lookup_insert_other _ _ hx, lookup_erase_other m hx]

/-! ### The canonical form -/

theorem wfFrom_mono {m : Memory} {lo lo' : Nat} (h : Memory.wfFrom lo' m = true) (hl : lo ≤ lo') :
    Memory.wfFrom lo m = true := by
  cases m with
  | nil => rfl
  | cons c rest =>
    simp only [Memory.wfFrom, Bool.and_eq_true, decide_eq_true_eq] at h ⊢
    exact ⟨⟨⟨by omega, h.1.1.2⟩, h.1.2⟩, h.2⟩

theorem wfFrom_erase {m : Memory} {lo : Nat} (a : Nat) (h : Memory.wfFrom lo m = true) :
    Memory.wfFrom lo (m.erase a) = true := by
  induction m generalizing lo with
  | nil => rfl
  | cons c rest ih =>
    simp only [Memory.wfFrom, Bool.and_eq_true, decide_eq_true_eq] at h
    by_cases hc : c.1 = a
    · simpa [Memory.erase, hc] using wfFrom_mono (ih h.2) (by omega)
    · simp only [Memory.erase, hc, if_false, Memory.wfFrom, Bool.and_eq_true, decide_eq_true_eq]
      exact ⟨h.1, ih h.2⟩

theorem wfFrom_insert {m : Memory} {lo a : Nat} {b : Byte} (h : Memory.wfFrom lo m = true)
    (hlo : lo ≤ a) (ha : a < memorySize) (hb : b ≠ unlistedByte) (hne : ∀ c ∈ m, c.1 ≠ a) :
    Memory.wfFrom lo (Memory.insert a b m) = true := by
  induction m generalizing lo with
  | nil => simp [Memory.insert, Memory.wfFrom, hlo, ha, hb]
  | cons c rest ih =>
    simp only [Memory.wfFrom, Bool.and_eq_true, decide_eq_true_eq] at h
    have hc : c.1 ≠ a := hne c (by simp)
    by_cases hl : a < c.1
    · simp only [Memory.insert, hl, if_true, Memory.wfFrom, Bool.and_eq_true, decide_eq_true_eq, bne_iff_ne]
      exact ⟨⟨⟨hlo, ha⟩, hb⟩, ⟨⟨hl, h.1.1.2⟩, by simpa using h.1.2⟩, h.2⟩
    · simp only [Memory.insert, hl, if_false, Memory.wfFrom, Bool.and_eq_true, decide_eq_true_eq]
      exact ⟨h.1, ih h.2 (by omega) fun d hd => hne d (by simp [hd])⟩

/-- Every write inside the address space keeps the canonical form. -/
theorem wf_write {m : Memory} (h : m.wf = true) {a : Nat} (ha : a < memorySize) (b : Byte) :
    (m.write a b).wf = true := by
  by_cases hb : b = unlistedByte
  · simpa [Memory.write, Memory.wf, hb] using wfFrom_erase a h
  · simpa [Memory.write, Memory.wf, hb] using
      wfFrom_insert (wfFrom_erase a h) (Nat.zero_le a) ha hb (erase_keys_ne m a)

theorem storeByte_keeps_wf {s : State} (h : s.mem.wf = true) (a : Word) (b : Byte) :
    (storeByte a b s).mem.wf = true :=
  wf_write h a.isLt b

theorem storeWord_keeps_wf {s : State} (h : s.mem.wf = true) (a v : Word) : (storeWord a v s).mem.wf = true :=
  storeByte_keeps_wf (storeByte_keeps_wf h _ _) _ _

theorem reset_mem_wf (c : Config) : (State.resetWith c).mem.wf = true := rfl

/-! ### Reads after stores -/

theorem readByte_storeByte (s : State) (a x : Word) (b : Byte) :
    readByte x (storeByte a b s) = if x = a then b else readByte x s := by
  simp [readByte, lookup_write, BitVec.toNat_inj]

/-- The two bytes of a word lie at different addresses (R55). -/
theorem succ_ne_self (a : Word) : a + 1 ≠ a := by
  intro h
  simp at h

theorem readByte_storeWord (s : State) (a x v : Word) :
    readByte x (storeWord a v s) = if x = a + 1 then hi8 v else if x = a then lo8 v else readByte x s := by
  simp [storeWord, readByte_storeByte]

end Sys2Proof.Machine
end

