-- ==== Sys2Proof/Laws/Registers.lean ====
section
/-! SUPPORT. Registers: read after write, in both views (R21 to R26). -/

namespace Sys2Proof.Machine

@[simp] theorem wordOfGpr_gprOfWord (v : Word) : wordOfGpr (gprOfWord v) = v := by simp [wordOfGpr, gprOfWord]

@[simp] theorem gprOfWord_lo (v : Word) : (gprOfWord v).lo = lo8 v := rfl

@[simp] theorem gprOfWord_hi (v : Word) : (gprOfWord v).hi = hi8 v := rfl

/-- What a byte-register write does to every byte register (R22). -/
theorem readReg8_writeReg8 (r x : Reg8) (b : Byte) (s : State) :
    readReg8 x (writeReg8 r b s) = if x = r then b else readReg8 x s := by
  cases r <;> cases x <;> rfl

/-- What a word-register write does to every word register (R22, R25). -/
theorem readReg16_writeReg16 (r x : Reg16) (v : Word) (s : State) :
    readReg16 x (writeReg16 r v s) = if x = r then v else readReg16 x s := by
  cases r <;> cases x <;> simp [readReg16, writeReg16]

/-! Registers and memory are separate. -/

@[simp] theorem readByte_writeReg8 (a : Word) (r : Reg8) (b : Byte) (s : State) :
    readByte a (writeReg8 r b s) = readByte a s := by simp [readByte]

@[simp] theorem readByte_writeReg16 (a : Word) (r : Reg16) (v : Word) (s : State) :
    readByte a (writeReg16 r v s) = readByte a s := by simp [readByte]

@[simp] theorem readByte_setIp (a v : Word) (s : State) : readByte a (setIp v s) = readByte a s := rfl

@[simp] theorem readReg8_storeByte (r : Reg8) (a : Word) (b : Byte) (s : State) :
    readReg8 r (storeByte a b s) = readReg8 r s := by cases r <;> rfl

@[simp] theorem readReg16_storeByte (r : Reg16) (a : Word) (b : Byte) (s : State) :
    readReg16 r (storeByte a b s) = readReg16 r s := by cases r <;> rfl

@[simp] theorem readReg8_storeWord (r : Reg8) (a v : Word) (s : State) :
    readReg8 r (storeWord a v s) = readReg8 r s := by cases r <;> rfl

@[simp] theorem readReg16_storeWord (r : Reg16) (a v : Word) (s : State) :
    readReg16 r (storeWord a v s) = readReg16 r s := by cases r <;> rfl

@[simp] theorem readReg8_setIp (r : Reg8) (v : Word) (s : State) : readReg8 r (setIp v s) = readReg8 r s := by
  cases r <;> rfl

@[simp] theorem readReg16_setIp (r : Reg16) (v : Word) (s : State) : readReg16 r (setIp v s) = readReg16 r s := by
  cases r <;> rfl

end Sys2Proof.Machine
end

