-- ==== Sys2Proof/Laws/Exec.lean ====
section
/-! SUPPORT. What each meaning answers, as one equation a meaning (R120 to R123, R151). -/

namespace Sys2Proof.Machine

/-- The hook of every instruction is empty (R131, R132). -/
@[simp] theorem runFlagHook_eq (i : Instr) (r : Word) (s : State) : runFlagHook i r s = s := by
  cases i <;> rfl

theorem exec_movRm8R8 (dst : Rm8) (src : Reg8) (s : State) :
    exec (.movRm8R8 dst src) s = .next (writeLoc8 (locOfRm8 dst s) (readReg8 src s) s) := rfl

theorem exec_movRm16R16 (dst : Rm16) (src : Reg16) (s : State) :
    exec (.movRm16R16 dst src) s = .next (writeLoc16 (locOfRm16 dst s) (readReg16 src s) s) := rfl

theorem exec_movR8Rm8 (dst : Reg8) (src : Rm8) (s : State) :
    exec (.movR8Rm8 dst src) s = .next (writeReg8 dst (readLoc8 (locOfRm8 src s) s) s) := rfl

theorem exec_movR16Rm16 (dst : Reg16) (src : Rm16) (s : State) :
    exec (.movR16Rm16 dst src) s = .next (writeReg16 dst (readLoc16 (locOfRm16 src s) s) s) := rfl

theorem exec_unimplementedOpcode (op : Byte) (s : State) :
    exec (.unimplementedOpcode op) s = .next (raiseError (.unimplementedOpcode op (s.ip - 1)) s) := rfl

/-! ### Writing a location touches registers and memory only -/

@[simp] theorem writeLoc8_ip (l : Loc8) (v : Byte) (s : State) : (writeLoc8 l v s).ip = s.ip := by
  cases l <;> simp [writeLoc8]
@[simp] theorem writeLoc8_flags (l : Loc8) (v : Byte) (s : State) : (writeLoc8 l v s).flags = s.flags := by
  cases l <;> simp [writeLoc8]
@[simp] theorem writeLoc8_cs (l : Loc8) (v : Byte) (s : State) : (writeLoc8 l v s).cs = s.cs := by
  cases l <;> simp [writeLoc8]
@[simp] theorem writeLoc8_ds (l : Loc8) (v : Byte) (s : State) : (writeLoc8 l v s).ds = s.ds := by
  cases l <;> simp [writeLoc8]
@[simp] theorem writeLoc8_ss (l : Loc8) (v : Byte) (s : State) : (writeLoc8 l v s).ss = s.ss := by
  cases l <;> simp [writeLoc8]
@[simp] theorem writeLoc8_es (l : Loc8) (v : Byte) (s : State) : (writeLoc8 l v s).es = s.es := by
  cases l <;> simp [writeLoc8]
@[simp] theorem writeLoc8_mode (l : Loc8) (v : Byte) (s : State) : (writeLoc8 l v s).mode = s.mode := by
  cases l <;> simp [writeLoc8]
@[simp] theorem writeLoc8_budget (l : Loc8) (v : Byte) (s : State) : (writeLoc8 l v s).budget = s.budget := by
  cases l <;> simp [writeLoc8]
@[simp] theorem writeLoc8_config (l : Loc8) (v : Byte) (s : State) : (writeLoc8 l v s).config = s.config := by
  cases l <;> simp [writeLoc8]
@[simp] theorem writeLoc8_report (l : Loc8) (v : Byte) (s : State) : (writeLoc8 l v s).report = s.report := by
  cases l <;> simp [writeLoc8]
@[simp] theorem writeLoc16_ip (l : Loc16) (v : Word) (s : State) : (writeLoc16 l v s).ip = s.ip := by
  cases l <;> simp [writeLoc16]
@[simp] theorem writeLoc16_flags (l : Loc16) (v : Word) (s : State) : (writeLoc16 l v s).flags = s.flags := by
  cases l <;> simp [writeLoc16]
@[simp] theorem writeLoc16_cs (l : Loc16) (v : Word) (s : State) : (writeLoc16 l v s).cs = s.cs := by
  cases l <;> simp [writeLoc16]
@[simp] theorem writeLoc16_ds (l : Loc16) (v : Word) (s : State) : (writeLoc16 l v s).ds = s.ds := by
  cases l <;> simp [writeLoc16]
@[simp] theorem writeLoc16_ss (l : Loc16) (v : Word) (s : State) : (writeLoc16 l v s).ss = s.ss := by
  cases l <;> simp [writeLoc16]
@[simp] theorem writeLoc16_es (l : Loc16) (v : Word) (s : State) : (writeLoc16 l v s).es = s.es := by
  cases l <;> simp [writeLoc16]
@[simp] theorem writeLoc16_mode (l : Loc16) (v : Word) (s : State) : (writeLoc16 l v s).mode = s.mode := by
  cases l <;> simp [writeLoc16]
@[simp] theorem writeLoc16_budget (l : Loc16) (v : Word) (s : State) : (writeLoc16 l v s).budget = s.budget := by
  cases l <;> simp [writeLoc16]
@[simp] theorem writeLoc16_config (l : Loc16) (v : Word) (s : State) : (writeLoc16 l v s).config = s.config := by
  cases l <;> simp [writeLoc16]
@[simp] theorem writeLoc16_report (l : Loc16) (v : Word) (s : State) : (writeLoc16 l v s).report = s.report := by
  cases l <;> simp [writeLoc16]

theorem writeLoc8_keeps_wf (l : Loc8) (v : Byte) {s : State} (h : s.mem.wf = true) :
    (writeLoc8 l v s).mem.wf = true := by
  cases l with
  | reg r => simpa [writeLoc8] using h
  | mem a => exact storeByte_keeps_wf h a v

theorem writeLoc16_keeps_wf (l : Loc16) (v : Word) {s : State} (h : s.mem.wf = true) :
    (writeLoc16 l v s).mem.wf = true := by
  cases l with
  | reg r => simpa [writeLoc16] using h
  | mem a => exact storeWord_keeps_wf h a v

end Sys2Proof.Machine
end

