-- ==== Sys2Proof/Laws/Fetch.lean ====
section
/-! SUPPORT. What the fetches of a step do: they read memory and move ip (R13, R89). -/

namespace Sys2Proof.Machine

/-- `f` has moved ip by what it consumed and changed nothing else of `s`. -/
def Fetching.From (s : State) (f : Fetching) : Prop := f.state = setIp (s.ip + BitVec.ofNat 16 f.consumed) s

theorem Fetching.From.start (s : State) : Fetching.From s { state := s, consumed := 0 } := by
  simp [Fetching.From]

/-- One more byte read keeps that. -/
theorem Fetching.From.fetch8 {s : State} {f : Fetching} (h : Fetching.From s f) : Fetching.From s (fetch8 f).2 := by
  unfold Fetching.From at h ⊢
  simp [Machine.fetch8, h, BitVec.ofNat_add, BitVec.add_assoc]

/-- The byte read is the one at ip. -/
theorem Fetching.From.fetch8_byte {s : State} {f : Fetching} (h : Fetching.From s f) :
    (Machine.fetch8 f).1 = readByte (s.ip + BitVec.ofNat 16 f.consumed) s := by
  unfold Fetching.From at h
  simp [Machine.fetch8, h]

@[simp] theorem fetch8_consumed (f : Fetching) : (fetch8 f).2.consumed = f.consumed + 1 := rfl

@[simp] theorem fetch16_consumed (f : Fetching) : (fetch16 f).2.consumed = f.consumed + 2 := rfl

theorem Fetching.From.fetchDisp {s : State} {f : Fetching} (h : Fetching.From s f) (size : DispSize) :
    Fetching.From s (fetchDisp size f).2 := by
  cases size with
  | zero => exact h
  | one => exact h.fetch8
  | two => exact h.fetch8.fetch8

end Sys2Proof.Machine
end

