-- ==== Sys2Proof/Laws/Flags.lean ====
section
/-! SUPPORT. What setting one bit of flags does to every bit (R133). -/

namespace Sys2Proof.Machine

/-- Every flag stands inside the word (R29). -/
theorem flagPos_lt (f : Flag) : flagPos f < 16 := by cases f <;> decide

/-- What `putBit` does to every bit of a word. -/
theorem getLsbD_putBit (v : Word) {n : Nat} (hn : n < 16) (b : Bool) (i : Nat) :
    (putBit v n b).getLsbD i = if i = n then b else v.getLsbD i := by
  have ht : (BitVec.twoPow 16 n).getLsbD i = decide (n = i) := by
    rw [BitVec.getLsbD_twoPow]; simp [hn]
  by_cases hi : i < 16
  · by_cases h : i = n
    · subst h
      cases b <;> simp only [putBit, if_true, Bool.false_eq_true, if_false, BitVec.getLsbD_or, BitVec.getLsbD_and,
        BitVec.getLsbD_not, ht] <;> simp [hi]
    · cases b <;> simp only [putBit, if_true, Bool.false_eq_true, if_false, BitVec.getLsbD_or, BitVec.getLsbD_and,
        BitVec.getLsbD_not, ht, h] <;> simp [hi, Ne.symm h]
  · have : i ≠ n := by omega
    rw [if_neg this, BitVec.getLsbD_of_ge _ i (by omega), BitVec.getLsbD_of_ge _ i (by omega)]

end Sys2Proof.Machine
end

