-- ==== Sys2Proof/Laws/PerInstr.lean ====
section
/-! SUPPORT. Statements made of every instruction, one lemma per constructor (LAWS.json). -/

/-- The encoder writes as many bytes as the length table gives (R71). -/
def Sys2Proof.Laws.EncodedLength.Statement (i : Sys2Proof.Instr) : Prop :=
  (Sys2Proof.encode i).length = i.length

namespace Sys2Proof.Laws

/-- The ModRM byte and the displacement of a memory operand. -/
theorem encodeMem_length (reg : BitVec 3) (m : MemOperand) : (encodeMem reg m).length = 1 + m.dispLength := by
  cases m <;> rfl

theorem encodeRm8_length (reg : BitVec 3) (x : Rm8) : (encodeRm8 reg x).length = 1 + x.dispLength := by
  cases x with
  | reg r => rfl
  | mem m => exact encodeMem_length reg m

theorem encodeRm16_length (reg : BitVec 3) (x : Rm16) : (encodeRm16 reg x).length = 1 + x.dispLength := by
  cases x with
  | reg r => rfl
  | mem m => exact encodeMem_length reg m

theorem EncodedLength.movRm8R8 (dst : Rm8) (src : Reg8) : EncodedLength.Statement (.movRm8R8 dst src) := by
  simp only [EncodedLength.Statement, encode, Instr.length, List.length_cons, encodeRm8_length]
  omega

theorem EncodedLength.movRm16R16 (dst : Rm16) (src : Reg16) : EncodedLength.Statement (.movRm16R16 dst src) := by
  simp only [EncodedLength.Statement, encode, Instr.length, List.length_cons, encodeRm16_length]
  omega

theorem EncodedLength.movR8Rm8 (dst : Reg8) (src : Rm8) : EncodedLength.Statement (.movR8Rm8 dst src) := by
  simp only [EncodedLength.Statement, encode, Instr.length, List.length_cons, encodeRm8_length]
  omega

theorem EncodedLength.movR16Rm16 (dst : Reg16) (src : Rm16) : EncodedLength.Statement (.movR16Rm16 dst src) := by
  simp only [EncodedLength.Statement, encode, Instr.length, List.length_cons, encodeRm16_length]
  omega

theorem EncodedLength.unimplementedOpcode (op : Byte) : EncodedLength.Statement (.unimplementedOpcode op) := rfl

end Sys2Proof.Laws
end

