-- ==== Sys2Proof/Laws/Step.lean ====
section
/-! SUPPORT. What a step that answers a next state has done (R101). -/

namespace Sys2Proof.Machine

/-- A step answers a next state only through a meaning's next state and the accounting of the bytes fetched. -/
theorem step_next {s t : State} (h : step s = .next t) :
    ∃ u, exec (fetchInstr s).1 (fetchInstr s).2.state = .next u ∧ t = chargeCycles (fetchInstr s).2.consumed u := by
  simp only [step] at h
  split at h
  · rename_i u hu
    cases h
    exact ⟨u, hu, rfl⟩
  · cases h
  · cases h

end Sys2Proof.Machine
end

