-- ==== Sys2Proof/Tests/Slice0.lean ====
section
/-! SUPPORT. Tests, their expected results from spec/95_test_vectors.md or worked out by hand from the rules named, and
for each statement with hypotheses a state and operands that meet them. -/

namespace Sys2Proof.Tests

open Sys2Proof Sys2Proof.Machine Sys2Proof.Statements

/-! ### Well-formedness refuses an ill-formed term for each of its checks -/

/-- R83: "[BP]" alone has no encoding, at either width and on either side. -/
theorem test_wellFormed_refuses_bare_bp :
    (Instr.movRm8R8 (.mem (.base .bp)) .al).wellFormed true = false ∧
    (Instr.movRm16R16 (.mem (.base .bp)) .ax).wellFormed true = false ∧
    (Instr.movR8Rm8 .al (.mem (.base .bp))).wellFormed true = false ∧
    (Instr.movR16Rm16 .ax (.mem (.base .bp))).wellFormed true = false := by decide

/-- R86: the load forms do not exist in a build without `MOV_LOAD_FORMS`. -/
theorem test_wellFormed_refuses_load_forms_when_off :
    (Instr.movR8Rm8 .al (.reg .ah)).wellFormed false = false ∧
    (Instr.movR16Rm16 .ax (.mem (.base .si))).wellFormed false = false := by decide

/-- R87: an admitted opcode is no illegal byte. -/
theorem test_wellFormed_refuses_admitted_opcode_as_illegal :
    (Instr.unimplementedOpcode 0x88).wellFormed false = false ∧
    (Instr.unimplementedOpcode 0x8A).wellFormed true = false ∧
    (Instr.unimplementedOpcode 0x8A).wellFormed false = true := by decide

/-! ### Words written out bit by bit from the encodings (R70, R72, R75) -/

/-- `10001000 mm rrr bbb dddddddd`: MOV [BP−1], AL (DC3). -/
theorem test_decode_movRm8R8 :
    decode false [0b10001000, 0b01000110, 0b11111111] = .ok (.movRm8R8 (.mem (.disp8 .bp 0xFF)) .al, 3) := by decide

/-- `10001001 mm rrr bbb`: MOV CX, AX (section 1.1); and the direct address, low byte first (DC5). -/
theorem test_decode_movRm16R16 :
    decode false [0b10001001, 0b11000001] = .ok (.movRm16R16 (.reg .cx) .ax, 2) ∧
    decode false [0b10001001, 0b00000110, 0b00110100, 0b00010010] =
      .ok (.movRm16R16 (.mem (.direct 0x1234)) .ax, 4) := by decide

/-- `10001010 mm rrr bbb dddddddd`: MOV AL, [BX+5] (R122). -/
theorem test_decode_movR8Rm8 :
    decode true [0b10001010, 0b01000111, 0b00000101] = .ok (.movR8Rm8 .al (.mem (.disp8 .bx 0x05)), 3) := by decide

/-- `10001011 mm rrr bbb`: MOV BX, [BX] (MV12). -/
theorem test_decode_movR16Rm16 :
    decode true [0b10001011, 0b00011111] = .ok (.movR16Rm16 .bx (.mem (.base .bx)), 2) := by decide

/-- The table's last row: NOP's byte 0x90, and 0x8A in the default build (MV8). -/
theorem test_decode_unimplementedOpcode :
    decode true [0b10010000] = .ok (.unimplementedOpcode 0x90, 1) ∧
    decode false [0b10001010, 0x47, 0x05] = .ok (.unimplementedOpcode 0x8A, 1) := by decide

/-- A list that ends inside an instruction is refused by name. -/
theorem test_decode_truncated :
    decode false [] = .error .truncated ∧ decode false [0x89] = .error .truncated ∧
    decode false [0x89, 0x06, 0x34] = .error .truncated := by decide

/-- Bit 0 of an opcode byte is w and bit 1 is d (R73, R74). -/
theorem test_opcode_bits :
    (opcodeByte .op88).getLsbD 0 = false ∧ (opcodeByte .op89).getLsbD 0 = true ∧
    (opcodeByte .op89).getLsbD 1 = false ∧ (opcodeByte .op8A).getLsbD 0 = false ∧
    (opcodeByte .op8A).getLsbD 1 = true ∧ (opcodeByte .op8B).getLsbD 0 = true := by decide

/-- The host's numbering: the ModRM byte is bits 15 to 8. -/
theorem test_decodeTableWord :
    decodeTableWord 16 0xC189 = some (.movRm16R16 (.reg .cx) .ax) ∧
    decodeTableWord 8 0x88 = some (.movRm8R8 (.mem (.base .bxSi)) .al) ∧
    decodeTableWord 16 0x048B = some (.movR16Rm16 .ax (.mem (.base .si))) ∧
    decodeTableWord 8 0xF4 = some (.unimplementedOpcode 0xF4) := by decide

/-! ### One step from a small state -/

/-- A build, start values of AX, BX and SI, and bytes at 0x0100, where ip points. -/
def start (loads : Bool) (ax bx si : Word) (bytes : List Byte) : State :=
  placeBytes bytes 0x0100
    { State.resetWith { defaultConfig with movLoadForms := loads } with
      gprA := gprOfWord ax, gprB := gprOfWord bx, si := si, ip := 0x0100 }

/-- MV2: MOV AH, AL changes the high byte only. -/
theorem test_movRm8R8_high_from_low :
    readReg16 .ax (afterStep (start false 0x1234 0 0 [0x88, 0xC4])) = 0x3434 := by decide

/-- DC2: MOV [SI−128], AL wraps below 0. -/
theorem test_movRm8R8_store_wraps :
    readByte 0xFF90 (afterStep (start false 0x0077 0 0x0010 [0x88, 0x44, 0x80])) = 0x77 := by decide

/-- Section 1.1: MOV CX, AX. -/
theorem test_movRm16R16_round_trip :
    readReg16 .cx (afterStep (start false 0xAC24 0 0 [0x89, 0xC1])) = 0xAC24 ∧
    (afterStep (start false 0xAC24 0 0 [0x89, 0xC1])).ip = 0x0102 := by decide

/-- MV6: a word store at 0xFFFF wraps to 0x0000. -/
theorem test_movRm16R16_store_wraps :
    readByte 0xFFFF (afterStep (start false 0xABCD 0 0 [0x89, 0x06, 0xFF, 0xFF])) = 0xCD ∧
    readByte 0x0000 (afterStep (start false 0xABCD 0 0 [0x89, 0x06, 0xFF, 0xFF])) = 0xAB := by decide

/-- MV10: MOV BH, [BX] forms its address before it writes. -/
theorem test_movR8Rm8_into_base :
    readReg16 .bx (afterStep (storeByte 0x0010 0x99 (start true 0 0x0010 0 [0x8A, 0x3F]))) = 0x9910 := by decide

/-- MV13: a word read at 0xFFFF takes its high byte from 0x0000. -/
theorem test_movR16Rm16_load_wraps :
    readReg16 .ax (afterStep (storeByte 0xFFFF 0x11 (storeByte 0x0000 0x22 (start true 0 0 0xFFFF [0x8B, 0x04])))) =
      0x2211 := by decide

/-- Section 1.7: an illegal byte moves ip by one and is reported with its address. -/
theorem test_unimplementedOpcode_report :
    (afterStep (start false 0x1111 0 0 [0x90])).ip = 0x0101 ∧
    (afterStep (start false 0x1111 0 0 [0x90])).report =
      { total := 1, error := some (.unimplementedOpcode 0x90 0x0100) } := by decide

/-- MV8: the load forms are illegal in the default build. -/
theorem test_unimplementedOpcode_load_form_off :
    (afterStep (start false 0 0 0 [0x8A, 0x47, 0x05])).report.error =
      some (.unimplementedOpcode 0x8A 0x0100) := by decide

/-- E8: an instruction across 0xFFFF. -/
theorem test_fetch_wraps :
    (afterStep (placeBytes [0x89, 0xC1] 0xFFFF { State.reset with ip := 0xFFFF, gprA := gprOfWord 0x4242 })).ip = 0x0001 ∧
    readReg16 .cx (afterStep (placeBytes [0x89, 0xC1] 0xFFFF
      { State.reset with ip := 0xFFFF, gprA := gprOfWord 0x4242 })) = 0x4242 := by decide

/-- DC1: the sum of base and index wraps. -/
theorem test_effectiveAddress_wraps :
    effectiveAddress (.base .bxSi) (start false 0 0xFFFF 0x0002 []) = 0x0001 := by decide

/-! ### The host's operations -/

/-- E2: a budget of 1 runs one whole MOV. -/
theorem test_execute_overruns :
    (hostCall (.execute 1) (start false 1 0 0 [0x89, 0xC1])).2 = .ok 2 := by decide

/-- Section 1.7: the error of a run, with its total. -/
theorem test_execute_error :
    (hostCall (.execute 10) (start false 1 0 0 [0x90])).2 =
      .runError (.unimplementedOpcode 0x90 0x0100) 1 := by decide

/-- RF1, RF2: the flag bytes drop their reserved bits. -/
theorem test_flag_bytes :
    readFlagsL (writeFlagsL 0xFF State.reset) = 0xD5 ∧ readFlagsH (writeFlagsH 0xFF State.reset) = 0x0F := by decide

/-- RF4, X4: a selector outside the accessor's families. -/
theorem test_invalidRegister :
    (hostCall (.getByte (.word (.reg .sp))) State.reset).2 = .error (.invalidRegister (.word (.reg .sp))) ∧
    (hostCall (.getWord (.byte .flagsH)) State.reset).2 = .error (.invalidRegister (.byte .flagsH)) := by decide

/-- The mask of R29 is the nine flags. -/
theorem test_flagsMask :
    flagsMask = ([Flag.carry, .parity, .auxCarry, .zero, .sign, .trap, .interruptEnable, .direction, .overflow].map
      fun f => BitVec.twoPow 16 (flagPos f)).foldl (· ||| ·) 0 := by decide

/-- The reference flags of section 2.5. -/
theorem test_reference_flags :
    (zeroFlag (0x00 : Byte), signFlag (0x80 : Byte), parityFlag (0x03 : Byte), parityFlag (0x01 : Byte)) =
      (true, true, true, false) ∧
    (addCarry (0xFF : Byte) 0x01 false, addAuxCarry (0xFF : Byte) 0x01 false, addOverflow (0xFF : Byte) 0x01 false) =
      (true, true, false) ∧
    (addCarry (0x7F : Byte) 0x01 false, addAuxCarry (0x7F : Byte) 0x01 false, addOverflow (0x7F : Byte) 0x01 false) =
      (false, true, true) ∧
    (subBorrow (0x00 : Byte) 0x01 false, subAuxCarry (0x00 : Byte) 0x01 false, subOverflow (0x00 : Byte) 0x01 false) =
      (true, true, false) := by decide

/-! ### What the host asks of the fixed names -/

/-- A placed word is fetched and run as the first instruction after reset: MOV CX, AX; and a row of the load forms, in
the build that has it. -/
theorem test_withFetchWord :
    (fetchInstr (State.reset.withFetchWord 16 0xC189)).1 = .movRm16R16 (.reg .cx) .ax ∧
    (fetchInstr (State.reset.withFetchWord 16 0x048B)).1 = .movR16Rm16 .ax (.mem (.base .si)) := by decide

/-! ### Witnesses: the hypotheses of the statements can be met -/

/-- ResetForgetsThePriorState: two different states of one build. -/
theorem witness_two_states_of_one_build :
    State.reset.config.resetIp = (start true 1 2 3 [0x8A]).config.resetIp ∧
    State.reset.config.resetCs = (start true 1 2 3 [0x8A]).config.resetCs ∧
    State.reset ≠ start true 1 2 3 [0x8A] := by decide

/-- RegisterViewsStayConsistent, PointerRegistersHaveNoByteViews: members of the two lists. -/
theorem witness_overlay_and_pointer :
    (Reg16.dx, Reg8.dl, Reg8.dh) ∈ overlays ∧ Reg16.bp ∈ [Reg16.sp, .bp, .si, .di] ∧ Reg16.ax ≠ Reg16.bp := by decide

/-- ByteStoreChangesOneByte, WordStoreIsLittleEndian: an address outside the two stored at 0xFFFF and 0x0000. -/
theorem witness_address_outside_a_word :
    (0x0001 : Word) ≠ 0xFFFF ∧ (0x0001 : Word) ≠ 0xFFFF + 1 := by decide

/-- CanonicalMemoriesThatReadAlikeAreEqual: a memory of two entries, at both ends of the address space. -/
theorem witness_canonical_memory :
    Memory.wf (Memory.write (Memory.write [] 0xFFFF 0x01) 0x0000 0x02) = true ∧
    Memory.write (Memory.write [] 0xFFFF 0x01) 0x0000 0x02 = [(0x0000, 0x02), (0xFFFF, 0x01)] := by decide

/-- IllegalOpcodesAreNamed, LengthIsFixedByOpcodeAndModrm: an illegal and an admitted byte, and bytes that decode to
each. -/
theorem witness_opcodes :
    admittedOpcode true 0x90 = none ∧ (admittedOpcode false 0x89).isSome = true ∧
    decode true [0x90] = .ok (.unimplementedOpcode 0x90, 1) ∧ 2 ≤ [(0x34 : Byte), 0x12].length ∧
    decode false [0x89, 0x06, 0x34, 0x12] = .ok (.movRm16R16 (.mem (.direct 0x1234)) .ax, 4) := by decide

/-- DecodeInvertsEncode: one well-formed instruction of each constructor. -/
theorem witness_wellFormed :
    (Instr.movRm8R8 (.mem (.disp8 .bp 0x00)) .bh).wellFormed false = true ∧
    (Instr.movRm16R16 (.mem (.direct 0xFFFF)) .di).wellFormed false = true ∧
    (Instr.movR8Rm8 .al (.reg .bh)).wellFormed true = true ∧
    (Instr.movR16Rm16 .ax (.mem (.base .bx))).wellFormed true = true ∧
    (Instr.unimplementedOpcode 0xFF).wellFormed true = true := by decide

/-- EffectiveAddressFollowsTheTable, RedundantEncodingsMeanTheSame: a memory mode, and a base other than BP. -/
theorem witness_memory_mode : (0b10 : BitVec 2) ≠ 0b11 ∧ Base.bx ≠ Base.bp := by decide

/-- EffectiveAddressFollowsTheTable: a load that answers a next state, at each width. -/
theorem witness_load_answers :
    (∃ t, exec (.movR8Rm8 .bh (.mem (.base .bx))) (start true 0 0x0010 0 []) = .next t) ∧
    (∃ t, exec (.movR16Rm16 .bx (.mem (.base .bx))) (start true 0 0x0010 0 []) = .next t) := ⟨⟨_, rfl⟩, ⟨_, rfl⟩⟩

/-- DecoderIsTotalOnBytes, StepRaisesOnlyUnimplementedOpcode, UnimplementedOpcodeStepEffect: a state at an admitted and a
state at an illegal opcode, no error reported yet; four bytes. -/
theorem witness_states_at_opcodes :
    (admittedOpcode false (readByte 0x0100 (start false 0 0 0 [0x89, 0xC1]))).isSome = true ∧
    admittedOpcode false (readByte 0x0100 (start false 0 0 0 [0xF4])) = none ∧
    (start false 0 0 0 [0xF4]).config.movLoadForms = false ∧ (start false 0 0 0 [0xF4]).ip = 0x0100 ∧
    (start false 0 0 0 [0xF4]).report.error = none ∧
    4 ≤ (bytesAtIp (start false 0 0 0 [0xF4])).length := by decide

/-- StepRunsTheDecodedInstruction, MovWritesOnlyItsDestination, FetchAgreesWithTheByteDecoder, and every statement about
a step's next state: a state whose bytes decode to a MOV, with its step. -/
theorem witness_step_of_a_mov :
    DecodesAtIp (start false 0x1234 0x0300 0 [0x88, 0x07]) (.movRm8R8 (.mem (.base .bx)) .al) 2 ∧
    (∀ op, Instr.movRm8R8 (.mem (.base .bx)) .al ≠ .unimplementedOpcode op) ∧
    ∃ t, step (start false 0x1234 0x0300 0 [0x88, 0x07]) = .next t :=
  ⟨by unfold DecodesAtIp; decide, (by intro op h; cases h), ⟨_, rfl⟩⟩

/-- PlacedWordIsFetchedNext: a word of each kind of row. -/
theorem witness_table_words :
    (decodeTableWord 16 0xC189).isSome = true ∧ (decodeTableWord 8 0x8A).isSome = true ∧
    (decodeTableWord 8 0x00).isSome = true := by decide

/-- StoreIsSeenByTheNextFetch: MOV [BX], AL and MOV [BX], AX with BX = 0x0102, the address of the next instruction. -/
theorem witness_store_into_next_instruction :
    DecodesAtIp (start false 0x9090 0x0102 0 [0x88, 0x07]) (.movRm8R8 (.mem (.base .bx)) .al) 2 ∧
    effectiveAddress (.base .bx) (start false 0x9090 0x0102 0 [0x88, 0x07]) =
      (afterStep (start false 0x9090 0x0102 0 [0x88, 0x07])).ip ∧
    DecodesAtIp (start false 0x9090 0x0102 0 [0x89, 0x07]) (.movRm16R16 (.mem (.base .bx)) .ax) 2 ∧
    effectiveAddress (.base .bx) (start false 0x9090 0x0102 0 [0x89, 0x07]) =
      (afterStep (start false 0x9090 0x0102 0 [0x89, 0x07])).ip := by
  unfold DecodesAtIp
  decide

/-- SetFlagWritesOneBit: reserved bits that are 0, and a bit that is not the flag's. -/
theorem witness_setFlag : reservedFlagsZero (0x0FD5 : Word) = true ∧ 1 ≠ flagPos .carry := by decide

/-- FlagByteViewsDiscardReservedBits, HostWritesReadBack: host writes that succeed, and a selector other than theirs. -/
theorem witness_host_writes :
    setByte (.byte (.reg .ah)) 0xFF State.reset = .ok (writeReg8 .ah 0xFF State.reset) ∧
    setWord (.seg .es) 0xFFFF State.reset = .ok (writeSeg .es 0xFFFF State.reset) ∧
    ByteSel.flagsL ≠ .reg .ah ∧ Selector.word .ip ≠ .seg .es := by decide

/-- FlagsAreNeitherReadNorWritten: a host operation that is none of the three that change flags. -/
theorem witness_host_operation_without_flags :
    HostOp.execute 3 ≠ .reset ∧ (∀ b, HostOp.execute 3 ≠ .setByte (.byte .flagsL) b) ∧
    (∀ b, HostOp.execute 3 ≠ .setByte (.byte .flagsH) b) :=
  ⟨by decide, (by intro b h; cases h), (by intro b h; cases h)⟩

/-- RunWithoutErrorHadNoneOnTheWay: one MOV, then another, with no error at the end. -/
theorem witness_run_without_error :
    Runs 1 (start false 1 0 0 [0x89, 0xC1, 0x89, 0xC1]) (afterStep (start false 1 0 0 [0x89, 0xC1, 0x89, 0xC1])) ∧
    Runs 1 (afterStep (start false 1 0 0 [0x89, 0xC1, 0x89, 0xC1]))
      (afterStep (afterStep (start false 1 0 0 [0x89, 0xC1, 0x89, 0xC1]))) ∧
    (afterStep (afterStep (start false 1 0 0 [0x89, 0xC1, 0x89, 0xC1]))).NoError :=
  ⟨⟨_, rfl, rfl⟩, ⟨_, rfl, rfl⟩, by unfold State.NoError; decide⟩

/-- ExecuteAccountsForItsCycles: both replies arise (the two tests of `execute` above are the others).
ExecuteSplitsAtInstructionBoundaries: a budget that ends at an instruction boundary (E3). -/
theorem witness_execute_to_a_boundary :
    (hostExecute 2 (start false 1 0 0 [0x89, 0xC1])).report = { total := 2, error := none } := by decide

/-- StepKeepsTheInvariant, HostOperationsKeepTheInvariant: a state in use, Idle, and a Running one. -/
theorem witness_invariant :
    (start false 0x1234 0x0300 0 [0x88, 0x07]).Inv ∧ (start false 0x1234 0x0300 0 [0x88, 0x07]).mode = .idle ∧
    (beginExecute 5 (start false 0x1234 0x0300 0 [0x88, 0x07])).Inv :=
  ⟨⟨by decide, by decide, by decide⟩, by decide, ⟨by decide, by decide, by decide⟩⟩

/-- HostStepRunsOneInstruction: a state between calls, at an admitted and at an illegal opcode. -/
theorem witness_between_calls :
    (start false 0 0 0 [0x89, 0xC1]).budget = 0 ∧
    (hostCall .step (start false 0 0 0 [0x89, 0xC1])).2 = .ok 2 ∧
    (hostCall .step (start false 0 0 0 [0xF4])).2 = .error (.unimplementedOpcode 0xF4 0x0100) := by decide

end Sys2Proof.Tests
end

section
/-! SUPPORT. The register file, the flags register and the host's accessors (R22, R25, R31, R32, R36). -/

namespace Sys2Proof.Machine

open Sys2Proof.Statements

/-! ### The three views of a general-purpose register (R22) -/

/-- The word view lays the high byte above the low byte (R21). -/
theorem readReg16_eq_joinBytes {w : Reg16} {l h : Reg8} (hw : (w, l, h) ∈ overlays) (s : State) :
    readReg16 w s = joinBytes (readReg8 h s) (readReg8 l s) := by
  simp only [overlays, List.mem_cons, Prod.mk.injEq, List.not_mem_nil, or_false] at hw
  obtain ⟨rfl, rfl, rfl⟩ | ⟨rfl, rfl, rfl⟩ | ⟨rfl, rfl, rfl⟩ | ⟨rfl, rfl, rfl⟩ := hw <;> rfl

/-- The two byte views of a register are different registers of R24. -/
theorem low_ne_high_of_mem_overlays {w : Reg16} {l h : Reg8} (hw : (w, l, h) ∈ overlays) : l ≠ h := by
  have hall : ∀ o ∈ overlays, o.2.1 ≠ o.2.2 := by decide
  exact hall _ hw

/-- The low byte after a word write: the word read back is both bytes, so each is its half of the word. -/
theorem readReg8_low_writeReg16 {w : Reg16} {l h : Reg8} (hw : (w, l, h) ∈ overlays) (v : Word) (s : State) :
    readReg8 l (writeReg16 w v s) = lo8 v := by
  have hv := readReg16_eq_joinBytes hw (writeReg16 w v s)
  rw [readReg16_writeReg16, if_pos rfl] at hv
  rw [hv, lo8_joinBytes, ← hv]

theorem readReg8_high_writeReg16 {w : Reg16} {l h : Reg8} (hw : (w, l, h) ∈ overlays) (v : Word) (s : State) :
    readReg8 h (writeReg16 w v s) = hi8 v := by
  have hv := readReg16_eq_joinBytes hw (writeReg16 w v s)
  rw [readReg16_writeReg16, if_pos rfl] at hv
  rw [hv, hi8_joinBytes, ← hv]

/-- Settles O3: the word view is always the two bytes joined, so each clause is a read after a write of one view. -/
theorem registerViewsStayConsistent : Obligations.RegisterViewsStayConsistent := by
  unfold Obligations.RegisterViewsStayConsistent
  intro w l h hw s v b
  have hne := low_ne_high_of_mem_overlays hw
  refine ⟨readReg16_eq_joinBytes hw s, ⟨readReg8_low_writeReg16 hw v s, readReg8_high_writeReg16 hw v s, ?_⟩, ?_, ?_⟩
  · rw [readReg16_writeReg16, if_pos rfl]
  · simp [readReg16_eq_joinBytes hw, readReg8_writeReg8, hne.symm]
  · simp [readReg16_eq_joinBytes hw, readReg8_writeReg8, hne]

/-! ### SP, BP, SI and DI have no byte views (R25) -/

theorem readReg8_writeReg16_pointer {p : Reg16} (hp : p ∈ [Reg16.sp, .bp, .si, .di]) (r : Reg8) (v : Word) (s : State) :
    readReg8 r (writeReg16 p v s) = readReg8 r s := by
  simp only [List.mem_cons, List.not_mem_nil, or_false] at hp
  obtain rfl | rfl | rfl | rfl := hp <;> cases r <;> rfl

theorem readReg16_pointer_writeReg8 {p : Reg16} (hp : p ∈ [Reg16.sp, .bp, .si, .di]) (r : Reg8) (b : Byte) (s : State) :
    readReg16 p (writeReg8 r b s) = readReg16 p s := by
  simp only [List.mem_cons, List.not_mem_nil, or_false] at hp
  obtain rfl | rfl | rfl | rfl := hp <;> simp [readReg16]

/-- Settles O5, by the read-after-write rule of the word registers and the two rules above. -/
theorem pointerRegistersHaveNoByteViews : Obligations.PointerRegistersHaveNoByteViews := by
  unfold Obligations.PointerRegistersHaveNoByteViews
  intro p hp s v b
  refine ⟨?_, fun r => readReg8_writeReg16_pointer hp r v s, fun w hw => ?_,
    fun r => readReg16_pointer_writeReg8 hp r b s⟩
  · rw [readReg16_writeReg16, if_pos rfl]
  · rw [readReg16_writeReg16, if_neg hw]

/-! ### The accessors inside and outside their families (R36) -/

theorem getByte_byte_ok (r : ByteSel) (s : State) : ∃ x, getByte (.byte r) s = .ok x := by
  cases r <;> exact ⟨_, rfl⟩

theorem setByte_byte_ok (r : ByteSel) (b : Byte) (s : State) : ∃ t, setByte (.byte r) b s = .ok t := by
  cases r <;> exact ⟨_, rfl⟩

theorem getWord_word_ok (r : WordSel) (s : State) : ∃ x, getWord (.word r) s = .ok x := by
  cases r <;> exact ⟨_, rfl⟩

theorem setWord_word_ok (r : WordSel) (v : Word) (s : State) : ∃ t, setWord (.word r) v s = .ok t := by
  cases r <;> exact ⟨_, rfl⟩

/-- A byte read that succeeds is answered with the byte, and the state stays. -/
theorem hostCall_getByte_of_ok {sel : Selector} {s : State} (h : ∃ x, getByte sel s = .ok x) :
    ∃ x, hostCall (.getByte sel) s = (s, .byte x) := by
  obtain ⟨x, hx⟩ := h
  exact ⟨x, by rw [hostCall, hx, readReply]⟩

theorem hostCall_getWord_of_ok {sel : Selector} {s : State} (h : ∃ x, getWord sel s = .ok x) :
    ∃ x, hostCall (.getWord sel) s = (s, .word x) := by
  obtain ⟨x, hx⟩ := h
  exact ⟨x, by rw [hostCall, hx, readReply]⟩

theorem hostCall_setByte_of_ok {sel : Selector} {b : Byte} {s : State} (h : ∃ t, setByte sel b s = .ok t) :
    (hostCall (.setByte sel b) s).2 = .done := by
  obtain ⟨t, ht⟩ := h
  rw [hostCall, ht, writeReply]

theorem hostCall_setWord_of_ok {sel : Selector} {v : Word} {s : State} (h : ∃ t, setWord sel v s = .ok t) :
    (hostCall (.setWord sel v) s).2 = .done := by
  obtain ⟨t, ht⟩ := h
  rw [hostCall, ht, writeReply]

/-- Settles O41: a foreign selector is refused by the accessor's own equation; inside the families each succeeds. -/
theorem accessorsRefuseForeignSelectors : Obligations.AccessorsRefuseForeignSelectors := by
  unfold Obligations.AccessorsRefuseForeignSelectors
  intro s b v
  refine ⟨fun _ => ⟨rfl, rfl⟩, fun _ => ⟨rfl, rfl⟩, fun _ => ⟨rfl, rfl⟩, fun r => ?_, fun r => ?_, fun r => ?_⟩
  · exact ⟨hostCall_getByte_of_ok (getByte_byte_ok r s), hostCall_setByte_of_ok (setByte_byte_ok r b s)⟩
  · exact ⟨hostCall_getWord_of_ok (getWord_word_ok r s), hostCall_setWord_of_ok (setWord_word_ok r v s)⟩
  · exact ⟨hostCall_getWord_of_ok ⟨_, rfl⟩, hostCall_setWord_of_ok ⟨_, rfl⟩⟩

/-! ### The byte views of flags (R31) -/

theorem lo8_eq_setWidth (v : Word) : lo8 v = v.setWidth 8 := by
  apply BitVec.eq_of_toNat_eq
  rw [lo8_toNat, BitVec.toNat_setWidth]

theorem hi8_eq_setWidth_shiftRight (v : Word) : hi8 v = (v >>> 8).setWidth 8 := by
  have := v.isLt
  apply BitVec.eq_of_toNat_eq
  rw [hi8_toNat, BitVec.toNat_setWidth, BitVec.toNat_ushiftRight, Nat.shiftRight_eq_div_pow]
  omega

/-- No word accessor reaches flags (R31, R36). -/
theorem setWord_flags {sel : Selector} {v : Word} {s t : State} (h : setWord sel v s = .ok t) : t.flags = s.flags := by
  match sel with
  | .word (.reg r) => cases h; exact writeReg16_flags s r v
  | .word .ip => cases h; exact setIp_flags s v
  | .seg r => cases h; exact writeSeg_flags s r v
  | .byte _ => cases h

/-- Settles O35: the writes are the rule's formulas as they stand, and the reads are the halves of flags. -/
theorem flagByteViewsDiscardReservedBits : Obligations.FlagByteViewsDiscardReservedBits := by
  unfold Obligations.FlagByteViewsDiscardReservedBits
  intro s b
  refine ⟨rfl, rfl, ?_, ?_, fun _ _ _ => setWord_flags⟩
  · rw [getByte, readFlagsL, lo8_eq_setWidth]
  · rw [getByte, readFlagsH, hi8_eq_setWidth_shiftRight]

end Sys2Proof.Machine
end

section
/-! SUPPORT. Changes of the state that a step neither sees nor undoes, and flags as one of them (R32, R131). -/

namespace Sys2Proof.Machine

/-! ### Changes a step ignores -/

/-- A change of the state that a fetch does not see and leaves in place: it keeps ip, the build and every byte of
memory, and does not matter to moving ip. -/
structure IgnoredByFetch (g : State → State) : Prop where
  ip : ∀ s, (g s).ip = s.ip
  config : ∀ s, (g s).config = s.config
  readByte : ∀ a s, readByte a (g s) = readByte a s
  setIp : ∀ v s, setIp v (g s) = g (setIp v s)

/-- A change of the state that a step does not see and leaves in place: each read is as before the change, and each
update commutes with it. -/
structure IgnoredByStep (g : State → State) : Prop extends IgnoredByFetch g where
  readReg8 : ∀ r s, readReg8 r (g s) = readReg8 r s
  readReg16 : ∀ r s, readReg16 r (g s) = readReg16 r s
  writeReg8 : ∀ r b s, writeReg8 r b (g s) = g (writeReg8 r b s)
  writeReg16 : ∀ r v s, writeReg16 r v (g s) = g (writeReg16 r v s)
  storeByte : ∀ a b s, storeByte a b (g s) = g (storeByte a b s)
  raiseError : ∀ e s, raiseError e (g s) = g (raiseError e s)
  chargeCycles : ∀ k s, chargeCycles k (g s) = g (chargeCycles k s)

/-- A change made to the state of a step during its fetches. -/
def Fetching.mapState (g : State → State) (f : Fetching) : Fetching := { f with state := g f.state }

section
variable {g : State → State}

namespace IgnoredByFetch

theorem fetch8 (hg : IgnoredByFetch g) (f : Fetching) :
    fetch8 (f.mapState g) = ((Machine.fetch8 f).1, (Machine.fetch8 f).2.mapState g) := by
  simp [Machine.fetch8, Fetching.mapState, hg.ip, hg.readByte, hg.setIp]

theorem fetch16 (hg : IgnoredByFetch g) (f : Fetching) :
    fetch16 (f.mapState g) = ((Machine.fetch16 f).1, (Machine.fetch16 f).2.mapState g) := by
  simp [Machine.fetch16, hg.fetch8]

theorem fetchDisp (hg : IgnoredByFetch g) (size : DispSize) (f : Fetching) :
    fetchDisp size (f.mapState g) = ((Machine.fetchDisp size f).1, (Machine.fetchDisp size f).2.mapState g) := by
  cases size with
  | zero => rfl
  | one => simp [Machine.fetchDisp, hg.fetch8]
  | two => simp [Machine.fetchDisp, hg.fetch16]

/-- The change does not alter which instruction is fetched or in how many bytes. -/
theorem fetchInstr (hg : IgnoredByFetch g) (s : State) :
    fetchInstr (g s) = ((Machine.fetchInstr s).1, (Machine.fetchInstr s).2.mapState g) := by
  have hop := hg.fetch8 { state := s, consumed := 0 }
  rw [Fetching.mapState] at hop
  simp only [Machine.fetchInstr, hop, hg.config]
  split
  · rfl
  · simp only [hg.fetch8, hg.fetchDisp]

end IgnoredByFetch

namespace IgnoredByStep

theorem storeWord (hg : IgnoredByStep g) (a v : Word) (s : State) :
    storeWord a v (g s) = g (storeWord a v s) := by
  simp only [Machine.storeWord, hg.storeByte]

theorem effectiveAddress (hg : IgnoredByStep g) (m : MemOperand) (s : State) :
    effectiveAddress m (g s) = effectiveAddress m s := by
  have hbase (b : Base) : baseSum b (g s) = baseSum b s := by
    have hbx := hg.readReg16 .bx s
    have hbp : (g s).bp = s.bp := hg.readReg16 .bp s
    have hsi : (g s).si = s.si := hg.readReg16 .si s
    have hdi : (g s).di = s.di := hg.readReg16 .di s
    cases b <;> simp only [baseSum, hbx, hbp, hsi, hdi]
  cases m <;> simp only [Machine.effectiveAddress, hbase]

theorem locOfRm8 (hg : IgnoredByStep g) (x : Rm8) (s : State) : locOfRm8 x (g s) = locOfRm8 x s := by
  cases x <;> simp only [Machine.locOfRm8, hg.effectiveAddress]

theorem locOfRm16 (hg : IgnoredByStep g) (x : Rm16) (s : State) : locOfRm16 x (g s) = locOfRm16 x s := by
  cases x <;> simp only [Machine.locOfRm16, hg.effectiveAddress]

theorem readLoc8 (hg : IgnoredByStep g) (l : Loc8) (s : State) : readLoc8 l (g s) = readLoc8 l s := by
  cases l <;> simp only [Machine.readLoc8, hg.readReg8, hg.readByte]

theorem readLoc16 (hg : IgnoredByStep g) (l : Loc16) (s : State) : readLoc16 l (g s) = readLoc16 l s := by
  cases l <;> simp only [Machine.readLoc16, readWord, hg.readReg16, hg.readByte]

theorem writeLoc8 (hg : IgnoredByStep g) (l : Loc8) (v : Byte) (s : State) :
    writeLoc8 l v (g s) = g (writeLoc8 l v s) := by
  cases l <;> simp only [Machine.writeLoc8, hg.writeReg8, hg.storeByte]

theorem writeLoc16 (hg : IgnoredByStep g) (l : Loc16) (v : Word) (s : State) :
    writeLoc16 l v (g s) = g (writeLoc16 l v s) := by
  cases l <;> simp only [Machine.writeLoc16, hg.writeReg16, hg.storeWord]

/-- Every meaning reads and writes through the operations above, so the change passes through it. -/
theorem exec_next (hg : IgnoredByStep g) {i : Instr} {s t : State} (h : exec i s = .next t) :
    exec i (g s) = .next (g t) := by
  cases i with
  | movRm8R8 dst src =>
    rw [exec_movRm8R8] at h ⊢; cases h
    rw [hg.locOfRm8, hg.readReg8, hg.writeLoc8]
  | movRm16R16 dst src =>
    rw [exec_movRm16R16] at h ⊢; cases h
    rw [hg.locOfRm16, hg.readReg16, hg.writeLoc16]
  | movR8Rm8 dst src =>
    rw [exec_movR8Rm8] at h ⊢; cases h
    rw [hg.locOfRm8, hg.readLoc8, hg.writeReg8]
  | movR16Rm16 dst src =>
    rw [exec_movR16Rm16] at h ⊢; cases h
    rw [hg.locOfRm16, hg.readLoc16, hg.writeReg16]
  | unimplementedOpcode op =>
    rw [exec_unimplementedOpcode] at h ⊢; cases h
    rw [hg.ip, hg.raiseError]

/-- A change that a step ignores is there after the step, and the step is otherwise the same. -/
theorem step_next (hg : IgnoredByStep g) {s t : State} (h : step s = .next t) : step (g s) = .next (g t) := by
  obtain ⟨u, hu, rfl⟩ := Machine.step_next h
  simp only [step, hg.fetchInstr, Fetching.mapState, hg.exec_next hu, hg.chargeCycles]

end IgnoredByStep
end

/-! ### Flags are such a change (R32) -/

/-- Replacing flags. -/
def withFlags (f : Word) (s : State) : State := { s with flags := f }

theorem withFlags_ignoredByStep (f : Word) : IgnoredByStep (withFlags f) where
  ip _ := rfl
  config _ := rfl
  readByte _ _ := rfl
  setIp _ _ := rfl
  readReg8 r _ := by cases r <;> rfl
  readReg16 r _ := by cases r <;> rfl
  writeReg8 r _ _ := by cases r <;> rfl
  writeReg16 r _ _ := by cases r <;> rfl
  storeByte _ _ _ := rfl
  raiseError _ _ := rfl
  chargeCycles _ _ := rfl

/-- A step leaves flags as they were: it is the step from the state with its own flags put in, and that one ends with
these flags. -/
theorem step_flags {s t : State} (h : step s = .next t) : t.flags = s.flags := by
  have hf : step s = .next (withFlags s.flags t) := (withFlags_ignoredByStep s.flags).step_next h
  have ht : t = withFlags s.flags t := Host.Outcome.next.inj (h.symm.trans hf)
  calc t.flags = (withFlags s.flags t).flags := congrArg State.flags ht
    _ = s.flags := rfl

/-! ### The host's operations and flags -/

@[simp] theorem afterStep_flags (s : State) : (afterStep s).flags = s.flags := by
  unfold afterStep
  split
  · next h => exact step_flags h
  · rfl
  · rfl

@[simp] theorem runLoop_flags (fuel : Nat) (s : State) : (runLoop fuel s).flags = s.flags := by
  induction fuel generalizing s with
  | zero => rfl
  | succ fuel ih =>
    unfold runLoop
    split
    · rw [ih, afterStep_flags]
    · rfl

@[simp] theorem hostExecute_flags (n : Nat) (s : State) : (hostExecute n s).flags = s.flags :=
  runLoop_flags n (beginExecute n s)

@[simp] theorem hostStep_flags (s : State) : (hostStep s).flags = s.flags := afterStep_flags (beginStep s)

/-- Only the two flag bytes of `set_byte` reach flags (R31). -/
theorem setByte_flags {sel : Selector} {b : Byte} {s t : State} (hl : sel ≠ .byte .flagsL) (hh : sel ≠ .byte .flagsH)
    (h : setByte sel b s = .ok t) : t.flags = s.flags := by
  match sel with
  | .byte (.reg r) => cases h; exact writeReg8_flags s r b
  | .byte .flagsL => exact absurd rfl hl
  | .byte .flagsH => exact absurd rfl hh
  | .word _ => cases h
  | .seg _ => cases h

/-- An accessor that reads changes nothing (R36). -/
@[simp] theorem readReply_state {α : Type} (reply : α → HostReply) (s : State) (r : Except Fault α) :
    (readReply reply s r).1 = s := by
  cases r <;> rfl

/-- A write that fails changes nothing (R36), so flags stay if a write that succeeds keeps them. -/
theorem writeReply_flags {s : State} {r : Except Fault State} (h : ∀ t, r = .ok t → t.flags = s.flags) :
    (writeReply s r).1.flags = s.flags := by
  cases r with
  | ok t => exact h t rfl
  | error e => rfl

/-- R32 for the host: what is neither reset nor a write of a flag byte leaves flags alone. -/
theorem hostCall_flags {op : HostOp} {s : State} (hr : op ≠ .reset) (hl : ∀ b, op ≠ .setByte (.byte .flagsL) b)
    (hh : ∀ b, op ≠ .setByte (.byte .flagsH) b) : (hostCall op s).1.flags = s.flags := by
  cases op with
  | reset => exact absurd rfl hr
  | execute n => exact hostExecute_flags n s
  | step => exact hostStep_flags s
  | writeByte a b => exact storeByte_flags s a b
  | readByte a => rfl
  | getByte sel => rw [hostCall, readReply_state]
  | setByte sel b =>
    exact writeReply_flags fun _ =>
      setByte_flags (fun e => hl b (congrArg (HostOp.setByte · b) e)) (fun e => hh b (congrArg (HostOp.setByte · b) e))
  | getWord sel => rw [hostCall, readReply_state]
  | setWord sel v => exact writeReply_flags fun _ => setWord_flags

/-- Settles O31: replacing flags is a change that a step ignores, and the host's operations are steps and accessors. -/
theorem flagsAreNeitherReadNorWritten : Obligations.FlagsAreNeitherReadNorWritten := by
  unfold Obligations.FlagsAreNeitherReadNorWritten
  refine ⟨fun s t f h => ⟨(withFlags_ignoredByStep f).step_next h, step_flags h⟩, fun i r => ?_,
    fun op s => hostCall_flags⟩
  cases i <;> rfl

end Sys2Proof.Machine
end

section
/-! SUPPORT. Stores and what reads see of them (R53 to R55). -/

namespace Sys2Proof.Machine

theorem readByte_storeByte_same (s : State) (a : Word) (b : Byte) : readByte a (storeByte a b s) = b := by
  rw [readByte_storeByte, if_pos rfl]

theorem readByte_storeByte_other (s : State) {a x : Word} (b : Byte) (h : x ≠ a) :
    readByte x (storeByte a b s) = readByte x s := by
  rw [readByte_storeByte, if_neg h]

/-- Stores at different addresses may change places: no read sees their order. -/
theorem readByte_storeByte_comm (s : State) {a c : Word} (h : a ≠ c) (b d : Byte) (x : Word) :
    readByte x (storeByte a b (storeByte c d s)) = readByte x (storeByte c d (storeByte a b s)) := by
  by_cases hx : x = a
  · subst hx
    rw [readByte_storeByte_same, readByte_storeByte_other _ _ h, readByte_storeByte_same]
  · rw [readByte_storeByte_other _ _ hx, readByte_storeByte, readByte_storeByte, readByte_storeByte_other _ _ hx]

theorem readByte_storeWord_low (s : State) (a v : Word) : readByte a (storeWord a v s) = lo8 v := by
  rw [readByte_storeWord, if_neg (succ_ne_self a).symm, if_pos rfl]

theorem readByte_storeWord_high (s : State) (a v : Word) : readByte (a + 1) (storeWord a v s) = hi8 v := by
  rw [readByte_storeWord, if_pos rfl]

theorem readByte_storeWord_other (s : State) {a x : Word} (v : Word) (hlo : x ≠ a) (hhi : x ≠ a + 1) :
    readByte x (storeWord a v s) = readByte x s := by
  rw [readByte_storeWord, if_neg hhi, if_neg hlo]

/-- A word read gives back the word stored (R54, R55). -/
theorem readWord_storeWord_same (s : State) (a v : Word) : readWord a (storeWord a v s) = v := by
  rw [readWord, readByte_storeWord_high, readByte_storeWord_low, joinBytes_hi8_lo8]

/-- A byte store changes no field but memory (R53). -/
theorem storeByte_frame (s : State) (a : Word) (b : Byte) : { storeByte a b s with mem := s.mem } = s := rfl

/-- A word store changes no field but memory (R55). -/
theorem storeWord_frame (s : State) (a v : Word) : { storeWord a v s with mem := s.mem } = s := rfl

/-- Settles O6, by the read-after-store rule at the address and at any other, and the frame of a byte store. -/
theorem byteStoreChangesOneByte : Obligations.ByteStoreChangesOneByte := by
  unfold Obligations.ByteStoreChangesOneByte
  intro s a b
  exact ⟨readByte_storeByte_same s a b, fun _ => readByte_storeByte_other s b, storeByte_frame s a b⟩

/-- Settles O7: the two byte stores of a word hit different addresses, also where the second wraps, so each byte is read
back and their order cannot be seen. -/
theorem wordStoreIsLittleEndian : Obligations.WordStoreIsLittleEndian := by
  unfold Obligations.WordStoreIsLittleEndian
  intro s a v
  have horder (x : Word) :
      readByte x (storeByte a (lo8 v) (storeByte (a + 1) (hi8 v) s)) = readByte x (storeWord a v s) :=
    readByte_storeByte_comm s (succ_ne_self a).symm (lo8 v) (hi8 v) x
  exact ⟨readByte_storeWord_low s a v, readByte_storeWord_high s a v, fun _ => readByte_storeWord_other s v,
    readWord_storeWord_same s a v, horder, storeWord_frame s a v, by decide⟩

end Sys2Proof.Machine
end

section
/-! SUPPORT. The admitted opcodes, and what the decoder answers for a list of bytes (R71, R85 to R88). -/

namespace Sys2Proof

open Sys2Proof.Statements

/-! ### The admitted opcodes (R86) -/

/-- Settles O9: each branch of `admittedOpcode` is one of the four bytes, and the last one none of them. -/
theorem admittedOpcodesDependOnMovLoadForms : Obligations.AdmittedOpcodesDependOnMovLoadForms := by
  unfold Obligations.AdmittedOpcodesDependOnMovLoadForms
  intro loads op
  unfold admittedOpcode
  split_ifs with h88 h89 h8A h8B
  · simp [h88]
  · simp [h89]
  · simp [h8A]
  · simp [h8B]
  · refine iff_of_false Bool.false_ne_true ?_
    rintro (h | h | ⟨hl, h | h⟩)
    · exact h88 h
    · exact h89 h
    · exact h8A ⟨hl, h⟩
    · exact h8B ⟨hl, h⟩

/-! ### The decoder's answers (R85) -/

/-- An opcode byte that is not admitted is decoded alone (R87). -/
theorem decode_of_not_admitted {loads : Bool} {op : Byte} (h : admittedOpcode loads op = none) (rest : List Byte) :
    decode loads (op :: rest) = .ok (.unimplementedOpcode op, 1) := by
  simp only [decode, h]

/-- The length table of R71 has an entry for each displacement size that mod and rm choose (R78). -/
theorem lengthByModrm_of_dispSize (modrm : Byte) :
    lengthByModrm modrm.toNat =
      match dispSize (modField modrm) (rmField modrm) with
      | .zero => 2
      | .one => 3
      | .two => 4 := by
  revert modrm
  decide

/-- Two bytes after the ModRM byte are enough to decode an admitted opcode. -/
theorem decode_of_admitted {loads : Bool} {op : Byte} {o : Opcode} (h : admittedOpcode loads op = some o)
    (modrm lo hi : Byte) (rest : List Byte) :
    decode loads (op :: modrm :: lo :: hi :: rest) =
      .ok (assemble o modrm (dispRead (modField modrm) (rmField modrm) lo (joinBytes hi lo)),
        lengthByModrm modrm.toNat) := by
  simp only [decode, h, dispRead, lengthByModrm_of_dispSize]
  cases dispSize (modField modrm) (rmField modrm) <;> rfl

/-- What follows an instruction does not matter to its decoding. -/
theorem decode_append {loads : Bool} {bytes : List Byte} {r : Instr × Nat} (h : decode loads bytes = .ok r)
    (rest : List Byte) : decode loads (bytes ++ rest) = .ok r := by
  match bytes with
  | [] => cases h
  | op :: tail =>
    cases ho : admittedOpcode loads op with
    | none => simpa only [List.cons_append, decode_of_not_admitted ho] using h
    | some o =>
      match tail with
      | [] => simp [decode, ho] at h
      | modrm :: ds =>
        simp only [decode, ho, List.cons_append] at h ⊢
        cases hsize : dispSize (modField modrm) (rmField modrm) <;> simp only [hsize] at h ⊢
        case zero => exact h
        case one =>
          match ds with
          | [] => cases h
          | _ :: _ => exact h
        case two =>
          match ds with
          | [] => cases h
          | [_] => cases h
          | _ :: _ :: _ => exact h

/-- Settles O11: with two bytes after the ModRM byte the length is the table's, and a decode of fewer bytes is also the
decode of these bytes with two more behind them. -/
theorem lengthIsFixedByOpcodeAndModrm : Obligations.LengthIsFixedByOpcodeAndModrm := by
  unfold Obligations.LengthIsFixedByOpcodeAndModrm
  intro loads op modrm ds hadm
  obtain ⟨o, ho⟩ := Option.isSome_iff_exists.mp hadm
  have hdecodes (ds' : List Byte) (hlen : 2 ≤ ds'.length) :
      ∃ i, decode loads (op :: modrm :: ds') = .ok (i, lengthByModrm modrm.toNat) := by
    match ds', hlen with
    | lo :: hi :: rest, _ => exact ⟨_, decode_of_admitted ho modrm lo hi rest⟩
  refine ⟨hdecodes ds, fun i k h => ?_⟩
  obtain ⟨j, hj⟩ := hdecodes (ds ++ [0x00, 0x00]) (by simp)
  have hpad : decode loads (op :: modrm :: (ds ++ [0x00, 0x00])) = .ok (i, k) := decode_append h [0x00, 0x00]
  rw [hj] at hpad
  cases hpad
  rfl

theorem lengthByModrm_bounds (modrm : Nat) : 2 ≤ lengthByModrm modrm ∧ lengthByModrm modrm ≤ 4 := by
  unfold lengthByModrm
  split_ifs <;> decide

/-- Four bytes always decode, in 1 to 4 of them (R71, R88). -/
theorem decode_of_four_bytes (loads : Bool) {bytes : List Byte} (h : 4 ≤ bytes.length) :
    ∃ i k, decode loads bytes = .ok (i, k) ∧ 1 ≤ k ∧ k ≤ 4 := by
  match bytes, h with
  | op :: modrm :: lo :: hi :: rest, _ =>
    cases ho : admittedOpcode loads op with
    | none => exact ⟨_, _, decode_of_not_admitted ho _, by decide, by decide⟩
    | some o =>
      obtain ⟨hmin, hmax⟩ := lengthByModrm_bounds modrm.toNat
      exact ⟨_, _, decode_of_admitted ho modrm lo hi rest, by omega, hmax⟩

/-- An admitted opcode is assembled into a MOV (R85). -/
theorem assemble_ne_unimplementedOpcode (o : Opcode) (modrm : Byte) (disp : Disp) (op : Byte) :
    assemble o modrm disp ≠ .unimplementedOpcode op := by
  cases o <;> exact Instr.noConfusion

end Sys2Proof
end

section
/-! SUPPORT. What the fetch of an instruction reads and leaves, and the errors a step can report (R85, R88, R89). -/

namespace Sys2Proof.Machine

/-! ### The fetch moves ip only (R89) -/

theorem fetchInstr_from (s : State) : Fetching.From s (fetchInstr s).2 := by
  have hop := (Fetching.From.start s).fetch8
  simp only [fetchInstr]
  split
  · exact hop
  · exact hop.fetch8.fetchDisp _

/-- Settles O17: the fetch is a sequence of byte fetches, and each moves ip by the one byte it reads. -/
theorem decodingChangesOnlyIp : Obligations.DecodingChangesOnlyIp := by
  unfold Obligations.DecodingChangesOnlyIp
  exact ⟨fetchInstr_from, fun _ => ⟨rfl, fetch8_consumed _, rfl⟩⟩

/-! ### What is fetched (R85, R87) -/

theorem fetchInstr_of_not_admitted {s : State}
    (h : admittedOpcode s.config.movLoadForms (readByte s.ip s) = none) :
    fetchInstr s = (.unimplementedOpcode (readByte s.ip s), { state := setIp (s.ip + 1) s, consumed := 1 }) := by
  simp [fetchInstr, fetch8, h]

theorem fetchInstr_of_admitted {s : State} {o : Opcode}
    (h : admittedOpcode s.config.movLoadForms (readByte s.ip s) = some o) :
    ∃ modrm disp, (fetchInstr s).1 = assemble o modrm disp := by
  simp [fetchInstr, fetch8, h]

/-! ### The errors a step reports (R88) -/

/-- A meaning reports no new error but UnimplementedOpcode. -/
theorem exec_error {i : Instr} {s t : State} (h : exec i s = .next t) :
    t.report.error = s.report.error ∨ ∃ op a, t.report.error = some (.unimplementedOpcode op a) := by
  cases i with
  | movRm8R8 dst src => rw [exec_movRm8R8] at h; cases h; exact .inl (by rw [writeLoc8_report])
  | movRm16R16 dst src => rw [exec_movRm16R16] at h; cases h; exact .inl (by rw [writeLoc16_report])
  | movR8Rm8 dst src => rw [exec_movR8Rm8] at h; cases h; exact .inl (by rw [writeReg8_report])
  | movR16Rm16 dst src => rw [exec_movR16Rm16] at h; cases h; exact .inl (by rw [writeReg16_report])
  | unimplementedOpcode op => rw [exec_unimplementedOpcode] at h; cases h; exact .inr ⟨op, _, raiseError_error s _⟩

/-- So does a step: fetching reports nothing, and the accounting keeps the error. -/
theorem step_error {s t : State} (h : step s = .next t) :
    t.report.error = s.report.error ∨ ∃ op a, t.report.error = some (.unimplementedOpcode op a) := by
  obtain ⟨u, hu, rfl⟩ := step_next h
  have hfetch : (fetchInstr s).2.state.report = s.report := by rw [fetchInstr_from s, setIp_report]
  rw [chargeCycles_error, ← hfetch]
  exact exec_error hu

/-- Settles O18: the fetch and the decoder case by case on the opcode byte, and the two errors a step can end with. -/
theorem decoderIsTotalOnBytes : Obligations.DecoderIsTotalOnBytes := by
  unfold Obligations.DecoderIsTotalOnBytes
  refine ⟨fun s => ⟨fun hnone => ?_, fun hsome op => ?_⟩, fun loads _ => decode_of_four_bytes loads,
    fun s t hclear h => ?_⟩
  · rw [fetchInstr_of_not_admitted hnone]
    exact ⟨rfl, rfl⟩
  · obtain ⟨o, ho⟩ := Option.isSome_iff_exists.mp hsome
    obtain ⟨modrm, disp, hi⟩ := fetchInstr_of_admitted ho
    rw [hi]
    exact assemble_ne_unimplementedOpcode o modrm disp op
  · obtain hkept | ⟨op, a, hraised⟩ := step_error h
    · simp [hkept, hclear]
    · simp [hraised]

end Sys2Proof.Machine
end

section
/-! SUPPORT. Effective addresses: the formula by fields, and the operands that share one (R80, R81, R91). -/

namespace Sys2Proof.Machine

open Sys2Proof.Statements

/-! ### The formula (R80, R81) -/

theorem baseSum_baseOfField (rm : BitVec 3) (s : State) : baseSum (baseOfField rm) s = baseByField rm.toNat s := by
  unfold baseOfField
  match rm.toNat with
  | 0 | 1 | 2 | 3 | 4 | 5 | 6 | _ + 7 => rfl

theorem effectiveAddress_memOperand {mod : BitVec 2} (hmod : mod ≠ 0b11) (rm : BitVec 3) (d8 : Byte) (d16 : Word)
    (s : State) :
    effectiveAddress (memOperand mod rm (dispRead mod rm d8 d16)) s = addressByFields mod.toNat rm.toNat d8 d16 s := by
  have hmods : mod = 0b00 ∨ mod = 0b01 ∨ mod = 0b10 := by revert mod; decide
  obtain rfl | rfl | rfl := hmods
  · by_cases hrm : rm = 0b110
    · subst hrm; rfl
    · have hrm' : rm.toNat ≠ 6 := fun h => hrm (BitVec.eq_of_toNat_eq h)
      have hsize : dispSize 0b00 rm = .zero := by rw [dispSize, if_pos rfl, if_neg hrm]
      rw [dispRead, hsize]
      exact (baseSum_baseOfField rm s).trans (if_neg hrm').symm
  · exact congrArg (· + sext16 d8) (baseSum_baseOfField rm s)
  · exact congrArg (· + d16) (baseSum_baseOfField rm s)

/-- Settles O15: the formula for each mod, and for a load what its register reads after the write of the byte or word
at the address of the state before. -/
theorem effectiveAddressFollowsTheTable : Obligations.EffectiveAddressFollowsTheTable := by
  unfold Obligations.EffectiveAddressFollowsTheTable
  refine ⟨fun mod rm d8 d16 s hmod => effectiveAddress_memOperand hmod rm d8 d16 s, fun m s t r h => ?_,
    fun m s t r h => ?_⟩
  · rw [exec_movR8Rm8] at h
    cases h
    rw [readReg8_writeReg8, if_pos rfl, locOfRm8, readLoc8]
  · rw [exec_movR16Rm16] at h
    cases h
    rw [readReg16_writeReg16, if_pos rfl, locOfRm16, readLoc16, readWord]

/-! ### Operands with one address (R91) -/

/-- A MOV sees of a memory operand its address alone. -/
theorem sameOperand_of_effectiveAddress_eq {m m' : MemOperand}
    (h : ∀ s, effectiveAddress m s = effectiveAddress m' s) : SameOperand m m' := by
  refine ⟨fun r s => ?_, fun r s => ?_, fun r s => ?_, fun r s => ?_⟩
  · rw [exec_movRm8R8, exec_movRm8R8, locOfRm8, locOfRm8, h]
  · rw [exec_movRm16R16, exec_movRm16R16, locOfRm16, locOfRm16, h]
  · rw [exec_movR8Rm8, exec_movR8Rm8, locOfRm8, locOfRm8, h]
  · rw [exec_movR16Rm16, exec_movR16Rm16, locOfRm16, locOfRm16, h]

theorem sameOperand_base_disp16_zero (b : Base) : SameOperand (.base b) (.disp16 b 0x0000) :=
  sameOperand_of_effectiveAddress_eq fun s => (BitVec.add_zero (baseSum b s)).symm

/-- The sign extension of the displacement byte 0 is the word 0 (R79). -/
theorem sameOperand_base_disp8_zero (b : Base) : SameOperand (.base b) (.disp8 b 0x00) :=
  sameOperand_of_effectiveAddress_eq fun s => (BitVec.add_zero (baseSum b s)).symm

theorem sameOperand_disp8_disp16 (b : Base) (d : Byte) : SameOperand (.disp8 b d) (.disp16 b (sext16 d)) :=
  sameOperand_of_effectiveAddress_eq fun _ => rfl

/-- A register move stores and loads alike (R91). -/
theorem exec_movRm8R8_reg_eq_movR8Rm8_reg (r x : Reg8) (s : State) :
    exec (.movRm8R8 (.reg r) x) s = exec (.movR8Rm8 r (.reg x)) s := by
  rw [exec_movRm8R8, exec_movR8Rm8, locOfRm8, locOfRm8, writeLoc8, readLoc8]

theorem exec_movRm16R16_reg_eq_movR16Rm16_reg (r x : Reg16) (s : State) :
    exec (.movRm16R16 (.reg r) x) s = exec (.movR16Rm16 r (.reg x)) s := by
  rw [exec_movRm16R16, exec_movR16Rm16, locOfRm16, locOfRm16, writeLoc16, readLoc16]

/-- Settles O16: the memory forms have one address, and a register move is the same read and write in both forms. -/
theorem redundantEncodingsMeanTheSame : Obligations.RedundantEncodingsMeanTheSame := by
  unfold Obligations.RedundantEncodingsMeanTheSame
  refine ⟨fun b hb => ?_, fun b d => ?_, fun r x s => ?_, fun r x s => ?_⟩
  · exact ⟨sameOperand_base_disp8_zero b, sameOperand_base_disp16_zero b, bne_iff_ne.mpr hb⟩
  · exact ⟨sameOperand_disp8_disp16 b d, rfl, rfl, rfl, rfl⟩
  · exact ⟨exec_movRm8R8_reg_eq_movR8Rm8_reg r x s, rfl, rfl⟩
  · exact ⟨exec_movRm16R16_reg_eq_movR16Rm16_reg r x s, rfl, rfl⟩

end Sys2Proof.Machine
end

section
/-! SUPPORT. What a step spends and where it leaves the engine (R71, R101, R104, R107, R110). -/

namespace Sys2Proof.Machine

open Sys2Proof.Statements

/-! ### The cycles of a step (R71, R107) -/

theorem cyclesOf_of_not_admitted {s : State} (h : admittedOpcode s.config.movLoadForms (readByte s.ip s) = none) :
    cyclesOf s = 1 := if_pos h

theorem cyclesOf_of_admitted {s : State}
    (h : (admittedOpcode s.config.movLoadForms (readByte s.ip s)).isSome = true) :
    cyclesOf s = lengthByModrm (readByte (s.ip + 1) s).toNat :=
  if_neg (Option.isSome_iff_ne_none.mp h)

/-- An admitted opcode takes its ModRM byte at least (R71). -/
theorem two_le_cyclesOf {s : State} (h : (admittedOpcode s.config.movLoadForms (readByte s.ip s)).isSome = true) :
    2 ≤ cyclesOf s := by
  rw [cyclesOf_of_admitted h]
  exact (lengthByModrm_bounds _).1

theorem cyclesOf_pos (s : State) : 0 < cyclesOf s := by
  cases ho : admittedOpcode s.config.movLoadForms (readByte s.ip s) with
  | none => rw [cyclesOf_of_not_admitted ho]; exact Nat.one_pos
  | some o => exact Nat.lt_of_lt_of_le Nat.two_pos (two_le_cyclesOf (by rw [ho]; rfl))

/-- The fetch consumes as many bytes as the length table gives: a displacement of the size that the ModRM byte
chooses follows that byte (R78). -/
theorem fetchInstr_consumed (s : State) : (fetchInstr s).2.consumed = cyclesOf s := by
  cases ho : admittedOpcode s.config.movLoadForms (readByte s.ip s) with
  | none => rw [fetchInstr_of_not_admitted ho, cyclesOf_of_not_admitted ho]
  | some o =>
    have hmodrm : readByte (s.ip + 1) (setIp (s.ip + 1) s) = readByte (s.ip + 1) s := rfl
    rw [cyclesOf_of_admitted (by rw [ho]; rfl), lengthByModrm_of_dispSize]
    simp only [fetchInstr, fetch8, ho, setIp_ip, hmodrm]
    cases dispSize (modField (readByte (s.ip + 1) s)) (rmField (readByte (s.ip + 1) s)) <;> rfl

/-! ### What a MOV leaves alone (R124) -/

theorem writeLoc8_systemUnchanged (l : Loc8) (v : Byte) (s : State) : SystemUnchanged s (writeLoc8 l v s) := by
  constructor <;> simp

theorem writeLoc16_systemUnchanged (l : Loc16) (v : Word) (s : State) : SystemUnchanged s (writeLoc16 l v s) := by
  constructor <;> simp

/-- The meaning of a MOV is the write of one location. -/
theorem exec_mov_systemUnchanged {i : Instr} {s t : State} (hi : ∀ op, i ≠ .unimplementedOpcode op)
    (h : exec i s = .next t) : SystemUnchanged s t ∧ t.ip = s.ip := by
  cases i with
  | movRm8R8 dst src =>
    rw [exec_movRm8R8] at h; cases h
    exact ⟨writeLoc8_systemUnchanged _ _ s, writeLoc8_ip _ _ s⟩
  | movRm16R16 dst src =>
    rw [exec_movRm16R16] at h; cases h
    exact ⟨writeLoc16_systemUnchanged _ _ s, writeLoc16_ip _ _ s⟩
  | movR8Rm8 dst src =>
    rw [exec_movR8Rm8] at h; cases h
    exact ⟨writeLoc8_systemUnchanged (.reg dst) _ s, writeLoc8_ip (.reg dst) _ s⟩
  | movR16Rm16 dst src =>
    rw [exec_movR16Rm16] at h; cases h
    exact ⟨writeLoc16_systemUnchanged (.reg dst) _ s, writeLoc16_ip (.reg dst) _ s⟩
  | unimplementedOpcode op => exact absurd rfl (hi op)

/-- Moving ip first makes no difference to what is unchanged besides ip. -/
theorem SystemUnchanged.of_setIp {v : Word} {s t : State} (h : SystemUnchanged (setIp v s) t) :
    SystemUnchanged s t :=
  ⟨h.flags, h.cs, h.ds, h.ss, h.es, h.mode, h.budget, h.config, h.report⟩

/-! ### A step by its opcode byte (R101, R151) -/

/-- Every meaning answers a next state. -/
theorem exec_answers (i : Instr) (s : State) : ∃ t, exec i s = .next t := by
  cases i <;> exact ⟨_, rfl⟩

/-- So does every step, and `afterStep` is that state. -/
theorem step_eq_next_afterStep (s : State) : step s = .next (afterStep s) := by
  obtain ⟨u, hu⟩ := exec_answers (fetchInstr s).1 (fetchInstr s).2.state
  simp only [afterStep, step, hu]

/-- On an admitted opcode the step is the accounting of its cycles, after a meaning that has left the engine alone. -/
theorem step_of_admitted {s t : State} (hadm : (admittedOpcode s.config.movLoadForms (readByte s.ip s)).isSome = true)
    (h : step s = .next t) :
    ∃ u, t = chargeCycles (cyclesOf s) u ∧ SystemUnchanged s u ∧ u.ip = s.ip + BitVec.ofNat 16 (cyclesOf s) := by
  obtain ⟨o, ho⟩ := Option.isSome_iff_exists.mp hadm
  obtain ⟨modrm, disp, hi⟩ := fetchInstr_of_admitted ho
  obtain ⟨u, hu, rfl⟩ := step_next h
  rw [fetchInstr_from s, fetchInstr_consumed, hi] at hu
  obtain ⟨hsystem, hip⟩ := exec_mov_systemUnchanged (assemble_ne_unimplementedOpcode o modrm disp) hu
  exact ⟨u, by rw [fetchInstr_consumed], hsystem.of_setIp, hip⟩

/-- On any other opcode the step is the error, raised after the fetch of one byte, and the accounting of that byte. -/
theorem step_of_not_admitted {s : State} (h : admittedOpcode s.config.movLoadForms (readByte s.ip s) = none) :
    step s = .next
      (chargeCycles 1 (raiseError (.unimplementedOpcode (readByte s.ip s) s.ip) (setIp (s.ip + 1) s))) := by
  have haddr : s.ip + 1 - 1 = s.ip := BitVec.add_sub_cancel s.ip 1
  rw [step, fetchInstr_of_not_admitted h]
  simp only [exec_unimplementedOpcode, setIp_ip, haddr]

/-- Settles O22: by the opcode byte, the accounting of the table's length or of the one byte fetched. -/
theorem stepCostsItsLengthInBytes : Obligations.StepCostsItsLengthInBytes := by
  unfold Obligations.StepCostsItsLengthInBytes
  intro s t h
  cases ho : admittedOpcode s.config.movLoadForms (readByte s.ip s) with
  | none =>
    rw [step_of_not_admitted ho] at h
    cases h
    rw [cyclesOf_of_not_admitted ho]
    exact ⟨rfl, rfl⟩
  | some o =>
    obtain ⟨u, rfl, hsystem, hip⟩ := step_of_admitted (by rw [ho]; rfl) h
    rw [chargeCycles_total, hsystem.report, chargeCycles_ip]
    exact ⟨rfl, hip⟩

/-! ### The engine after a step (R104 to R106, R110) -/

/-- On an admitted opcode the budget falls by the cycles and the engine stops when none is left (R110). -/
theorem step_engine_of_admitted {s t : State}
    (hadm : (admittedOpcode s.config.movLoadForms (readByte s.ip s)).isSome = true) (h : step s = .next t) :
    t.budget = s.budget - cyclesOf s ∧
    t.mode = if s.mode = .running ∧ 0 < s.budget - cyclesOf s then .running else .idle := by
  obtain ⟨u, rfl, hsystem, -⟩ := step_of_admitted hadm h
  rw [chargeCycles_budget, chargeCycles_mode, hsystem.budget, hsystem.mode]
  exact ⟨rfl, rfl⟩

/-- On an admitted opcode the report has the cycles added and no new error. -/
theorem step_report_of_admitted {s t : State}
    (hadm : (admittedOpcode s.config.movLoadForms (readByte s.ip s)).isSome = true) (h : step s = .next t) :
    t.report = { total := s.report.total + cyclesOf s, error := s.report.error } := by
  obtain ⟨u, rfl, hsystem, -⟩ := step_of_admitted hadm h
  rw [← hsystem.report]
  rfl

/-- A step takes its cycles from the budget at least: an error takes all of it. -/
theorem step_budget_le {s t : State} (h : step s = .next t) : t.budget ≤ s.budget - cyclesOf s := by
  cases ho : admittedOpcode s.config.movLoadForms (readByte s.ip s) with
  | none =>
    rw [step_of_not_admitted ho] at h
    cases h
    rw [chargeCycles_budget, raiseError_budget, Nat.zero_sub]
    exact Nat.zero_le _
  | some o => exact (step_engine_of_admitted (by rw [ho]; rfl) h).1.le

/-- A step that leaves no budget leaves the engine Idle (R39). -/
theorem step_idle_of_spent {s t : State} (h : step s = .next t) (hspent : t.budget = 0) : t.mode = .idle := by
  obtain ⟨u, -, rfl⟩ := step_next h
  rw [chargeCycles_budget] at hspent
  rw [chargeCycles_mode, hspent]
  exact if_neg fun hrun => Nat.lt_irrefl 0 hrun.2

/-- A step from Idle stays Idle (R108). -/
theorem step_idle_of_idle {s t : State} (h : step s = .next t) (hidle : s.mode = .idle) : t.mode = .idle := by
  cases ho : admittedOpcode s.config.movLoadForms (readByte s.ip s) with
  | none => rw [step_of_not_admitted ho] at h; cases h; rfl
  | some o => rw [(step_engine_of_admitted (by rw [ho]; rfl) h).2, hidle]; rfl

end Sys2Proof.Machine
end

section
/-! SUPPORT. The engine's fields play no part in what an instruction does (R105). -/

namespace Sys2Proof.Machine

open Sys2Proof.Statements

/-- Replacing the engine's state and report. -/
def withEngine (n : Nat) (m : Mode) (r : Report) (s : State) : State :=
  { s with budget := n, mode := m, report := r }

section
variable (n : Nat) (m : Mode) (r : Report) (s : State)

theorem withEngine_ignoredByFetch : IgnoredByFetch (withEngine n m r) where
  ip _ := rfl
  config _ := rfl
  readByte _ _ := rfl
  setIp _ _ := rfl

/-! Reads do not see the change, and writes of a location commute with it. An error overwrites these fields, so the
change is not one of those `IgnoredByStep` speaks of. -/

@[simp] theorem readReg8_withEngine (x : Reg8) : readReg8 x (withEngine n m r s) = readReg8 x s := by
  cases x <;> rfl

@[simp] theorem readReg16_withEngine (x : Reg16) : readReg16 x (withEngine n m r s) = readReg16 x s := by
  cases x <;> rfl

@[simp] theorem effectiveAddress_withEngine (x : MemOperand) :
    effectiveAddress x (withEngine n m r s) = effectiveAddress x s := by
  have hbase (b : Base) : baseSum b (withEngine n m r s) = baseSum b s := by cases b <;> rfl
  cases x <;> simp only [effectiveAddress, hbase]

@[simp] theorem locOfRm8_withEngine (x : Rm8) : locOfRm8 x (withEngine n m r s) = locOfRm8 x s := by
  cases x <;> simp only [locOfRm8, effectiveAddress_withEngine]

@[simp] theorem locOfRm16_withEngine (x : Rm16) : locOfRm16 x (withEngine n m r s) = locOfRm16 x s := by
  cases x <;> simp only [locOfRm16, effectiveAddress_withEngine]

@[simp] theorem readLoc8_withEngine (l : Loc8) : readLoc8 l (withEngine n m r s) = readLoc8 l s := by
  cases l with
  | reg x => exact readReg8_withEngine n m r s x
  | mem a => rfl

@[simp] theorem readLoc16_withEngine (l : Loc16) : readLoc16 l (withEngine n m r s) = readLoc16 l s := by
  cases l with
  | reg x => exact readReg16_withEngine n m r s x
  | mem a => rfl

@[simp] theorem writeReg8_withEngine (x : Reg8) (b : Byte) :
    writeReg8 x b (withEngine n m r s) = withEngine n m r (writeReg8 x b s) := by
  cases x <;> rfl

@[simp] theorem writeReg16_withEngine (x : Reg16) (v : Word) :
    writeReg16 x v (withEngine n m r s) = withEngine n m r (writeReg16 x v s) := by
  cases x <;> rfl

@[simp] theorem writeLoc8_withEngine (l : Loc8) (b : Byte) :
    writeLoc8 l b (withEngine n m r s) = withEngine n m r (writeLoc8 l b s) := by
  cases l with
  | reg x => exact writeReg8_withEngine n m r s x b
  | mem a => rfl

@[simp] theorem writeLoc16_withEngine (l : Loc16) (v : Word) :
    writeLoc16 l v (withEngine n m r s) = withEngine n m r (writeLoc16 l v s) := by
  cases l with
  | reg x => exact writeReg16_withEngine n m r s x v
  | mem a => rfl

/-! What touches these fields touches nothing else. -/

theorem raiseError_withEngine (e : Fault) :
    raiseError e (withEngine n m r s) = withEngine 0 .idle { r with error := some e } (raiseError e s) := rfl

theorem chargeCycles_withEngine (k : Nat) :
    chargeCycles k (withEngine n m r s) =
      withEngine (n - k) (if m = .running ∧ 0 < n - k then .running else .idle) { r with total := r.total + k }
        (chargeCycles k s) := rfl

end

/-- A meaning answers the same state but for the engine's fields: a MOV passes them on, an error overwrites them. -/
theorem exec_withEngine {i : Instr} {s t : State} (h : exec i s = .next t) (n : Nat) (m : Mode) (r : Report) :
    ∃ n' m' r', exec i (withEngine n m r s) = .next (withEngine n' m' r' t) := by
  cases i with
  | movRm8R8 dst src =>
    rw [exec_movRm8R8] at h; cases h
    exact ⟨n, m, r, by simp [exec_movRm8R8]⟩
  | movRm16R16 dst src =>
    rw [exec_movRm16R16] at h; cases h
    exact ⟨n, m, r, by simp [exec_movRm16R16]⟩
  | movR8Rm8 dst src =>
    rw [exec_movR8Rm8] at h; cases h
    exact ⟨n, m, r, by simp [exec_movR8Rm8]⟩
  | movR16Rm16 dst src =>
    rw [exec_movR16Rm16] at h; cases h
    exact ⟨n, m, r, by simp [exec_movR16Rm16]⟩
  | unimplementedOpcode op => cases h; exact ⟨_, _, _, congrArg Host.Outcome.next (raiseError_withEngine n m r s _)⟩

/-- So does a step, whose fetch does not see these fields either. -/
theorem step_withEngine {s t : State} (h : step s = .next t) (n : Nat) (m : Mode) (r : Report) :
    ∃ n' m' r', step (withEngine n m r s) = .next (withEngine n' m' r' t) := by
  obtain ⟨u, hu, rfl⟩ := step_next h
  obtain ⟨n', m', r', hu'⟩ := exec_withEngine hu n m r
  have hstep : step (withEngine n m r s) =
      .next (chargeCycles (fetchInstr s).2.consumed (withEngine n' m' r' u)) := by
    simp only [step, (withEngine_ignoredByFetch n m r).fetchInstr, Fetching.mapState, hu']
  rw [chargeCycles_withEngine] at hstep
  exact ⟨_, _, _, hstep⟩

end Sys2Proof.Machine
end

section
/-! SUPPORT. The host's `execute` and `step()`: the loop and its replies (R104 to R111). -/

namespace Sys2Proof.Machine

open Sys2Proof.Statements

/-! ### The loop of `execute` (R104, R111) -/

/-- Without budget the loop does nothing. -/
theorem runLoop_of_spent {s : State} (h : s.budget = 0) (fuel : Nat) : runLoop fuel s = s := by
  cases fuel with
  | zero => rfl
  | succ fuel => exact if_neg (by omega)

theorem runLoop_of_budget {s : State} (h : 0 < s.budget) (fuel : Nat) :
    runLoop (fuel + 1) s = runLoop fuel (afterStep s) := if_pos h

/-- The loop may be left and entered again. -/
theorem runLoop_add (a b : Nat) (s : State) : runLoop (a + b) s = runLoop b (runLoop a s) := by
  induction a generalizing s with
  | zero => rw [Nat.zero_add, runLoop]
  | succ a ih =>
    obtain hspent | hbudget := Nat.eq_zero_or_pos s.budget
    · simp only [runLoop_of_spent hspent]
    · rw [Nat.succ_add, runLoop_of_budget hbudget, runLoop_of_budget hbudget, ih]

/-- A loop allowed as many steps as it has budget spends it all, since each step spends a unit at least; and Running
ends with the budget. -/
theorem runLoop_spends_budget {fuel : Nat} {s : State} (hfuel : s.budget ≤ fuel)
    (hidle : s.budget = 0 → s.mode = .idle) :
    (runLoop fuel s).budget = 0 ∧ (runLoop fuel s).mode = .idle := by
  induction fuel generalizing s with
  | zero =>
    have hspent : s.budget = 0 := Nat.le_zero.mp hfuel
    exact ⟨hspent, hidle hspent⟩
  | succ fuel ih =>
    obtain hspent | hbudget := Nat.eq_zero_or_pos s.budget
    · rw [runLoop_of_spent hspent]
      exact ⟨hspent, hidle hspent⟩
    · have hstep := step_eq_next_afterStep s
      have hle := step_budget_le hstep
      have hpos := cyclesOf_pos s
      rw [runLoop_of_budget hbudget]
      exact ih (by omega) (step_idle_of_spent hstep)

/-! ### `execute(n)` -/

theorem hostExecute_spends_budget (n : Nat) (s : State) :
    (hostExecute n s).budget = 0 ∧ (hostExecute n s).mode = .idle :=
  runLoop_spends_budget (Nat.le_refl n) fun h => if_pos h

/-- A budget of 1 is one step (R105). -/
theorem hostExecute_one (s : State) : hostExecute 1 s = afterStep (beginExecute 1 s) := rfl

theorem executeReply_of_report {t : State} {k : Nat} (h : t.report = { total := k, error := none }) :
    executeReply t = .ok k := by
  simp only [executeReply, h]

/-- Settles O43: the step commutes with replacing the engine's fields up to these fields, its accounting on an admitted
opcode, and `execute(1)` as one step, whose cycles are its report. -/
theorem budgetIsTestedOnlyBetweenInstructions : Obligations.BudgetIsTestedOnlyBetweenInstructions := by
  unfold Obligations.BudgetIsTestedOnlyBetweenInstructions
  refine ⟨fun s t n m r h => ?_, fun s t => step_engine_of_admitted, fun s hadm => ⟨?_, ?_⟩⟩
  · obtain ⟨n', m', r', ht⟩ := step_withEngine h n m r
    exact ⟨_, ht, rfl⟩
  · have hreport : (hostExecute 1 s).report = { total := 0 + cyclesOf s, error := none } :=
      step_report_of_admitted (s := beginExecute 1 s) hadm (step_eq_next_afterStep _)
    rw [Nat.zero_add] at hreport
    rw [hostCall, executeReply_of_report hreport]
  · exact (hostExecute_spends_budget 1 s).1

/-- Settles O45: `n` steps spend a budget of `n`, and the loop does nothing more without budget; a step spends its
cycles. -/
theorem executeEndsWithinItsBudget : Obligations.ExecuteEndsWithinItsBudget := by
  unfold Obligations.ExecuteEndsWithinItsBudget
  refine ⟨fun n extra s => ?_, fun s t h => ?_⟩
  · obtain ⟨hspent, hidle⟩ := hostExecute_spends_budget n s
    refine ⟨hidle, hspent, ?_⟩
    rw [runLoop_add]
    exact runLoop_of_spent hspent extra
  · obtain ⟨htotal, -⟩ := stepCostsItsLengthInBytes s t h
    rw [htotal]
    exact ⟨Nat.add_le_add_left (cyclesOf_pos s) _, fun hadm => Nat.add_le_add_left (two_le_cyclesOf hadm) _⟩

/-- Settles O44: the loop is given no step, so `execute(0)` is its own beginning. -/
theorem executeZeroChangesNothing : Obligations.ExecuteZeroChangesNothing := by
  unfold Obligations.ExecuteZeroChangesNothing
  intro s
  have hrun : hostExecute 0 s = { s with mode := .idle, budget := 0, report := .empty } := rfl
  rw [hostCall, hrun, executeReply_of_report rfl]

/-! ### The host's `step()` (R108) -/

/-- Settles O48: `step()` is the engine's step from Idle, and its reply is the report of that step, by the opcode byte. -/
theorem hostStepRunsOneInstruction : Obligations.HostStepRunsOneInstruction := by
  unfold Obligations.HostStepRunsOneInstruction
  intro s
  have hstep := step_eq_next_afterStep (beginStep s)
  refine ⟨hostStep s, hstep, rfl, step_idle_of_idle hstep rfl, fun hadm => ⟨?_, ?_⟩, fun hnone => ?_, fun hzero => ?_⟩
  · have hreport : (hostStep s).report = { total := 0 + cyclesOf s, error := none } :=
      step_report_of_admitted (s := beginStep s) hadm hstep
    simp only [hostCall, stepReply, hreport, Nat.zero_add]
  · exact (step_engine_of_admitted (s := beginStep s) hadm hstep).1
  · have hend := Host.Outcome.next.inj (hstep.symm.trans (step_of_not_admitted (s := beginStep s) hnone))
    rw [hostCall, hostStep, hend]
    exact ⟨rfl, rfl⟩
  · have hle : (hostStep s).budget ≤ s.budget - cyclesOf s := step_budget_le (s := beginStep s) hstep
    omega

end Sys2Proof.Machine
end

section
/-! SUPPORT. A MOV's step, from the bytes at ip to the one location it writes (R85, R124). -/

namespace Sys2Proof.Machine

open Sys2Proof.Statements

/-! ### The fetch and the byte decoder (R85) -/

/-- The displacement is read from the next bytes, the low byte first (R13, R78). -/
theorem Fetching.From.fetchDisp_eq_dispRead {s : State} {f : Fetching} (h : Fetching.From s f) (mod : BitVec 2)
    (rm : BitVec 3) :
    (Machine.fetchDisp (dispSize mod rm) f).1 =
      dispRead mod rm (readByte (s.ip + BitVec.ofNat 16 f.consumed) s)
        (joinBytes (readByte (s.ip + BitVec.ofNat 16 (f.consumed + 1)) s)
          (readByte (s.ip + BitVec.ofNat 16 f.consumed) s)) := by
  rw [dispRead, ← h.fetch8_byte, ← fetch8_consumed f, ← h.fetch8.fetch8_byte]
  cases dispSize mod rm <;> rfl

/-- An admitted opcode is assembled with the ModRM byte behind it and the displacement behind that (R71, R78). -/
theorem fetchInstr_fst_of_admitted {s : State} {o : Opcode}
    (h : admittedOpcode s.config.movLoadForms (readByte s.ip s) = some o) :
    (fetchInstr s).1 = assemble o (readByte (s.ip + 1) s)
      (dispRead (modField (readByte (s.ip + 1) s)) (rmField (readByte (s.ip + 1) s)) (readByte (s.ip + 2) s)
        (joinBytes (readByte (s.ip + 3) s) (readByte (s.ip + 2) s))) := by
  have hopcode := (Fetching.From.start s).fetch8
  have hmodrm : (fetch8 (fetch8 { state := s, consumed := 0 }).2).1 = readByte (s.ip + 1) s := hopcode.fetch8_byte
  have hop : (fetch8 { state := s, consumed := 0 }).1 = readByte s.ip s := rfl
  simp only [fetchInstr, hop, h, hmodrm, hopcode.fetch8.fetchDisp_eq_dispRead]
  rfl

/-- Fetching byte by byte reads what the decoder reads from the bytes at ip, and as many of them. -/
theorem decode_bytesAtIp (s : State) :
    decode s.config.movLoadForms (bytesAtIp s) = .ok ((fetchInstr s).1, (fetchInstr s).2.consumed) := by
  cases ho : admittedOpcode s.config.movLoadForms (readByte s.ip s) with
  | none => rw [bytesAtIp, decode_of_not_admitted ho, fetchInstr_of_not_admitted ho]
  | some o =>
    rw [bytesAtIp, decode_of_admitted ho, fetchInstr_fst_of_admitted ho, fetchInstr_consumed,
      cyclesOf_of_admitted (by rw [ho]; rfl)]

/-- A step runs the instruction that the bytes at ip decode to, with ip moved past it. -/
theorem step_next_of_decodesAtIp {s t : State} {i : Instr} {k : Nat} (hdec : DecodesAtIp s i k)
    (h : step s = .next t) : ∃ u, exec i (setIp (s.ip + BitVec.ofNat 16 k) s) = .next u ∧ t = chargeCycles k u := by
  have hfetched : (Except.ok ((fetchInstr s).1, (fetchInstr s).2.consumed) : Except DecodeError _) = .ok (i, k) :=
    (decode_bytesAtIp s).symm.trans hdec
  cases hfetched
  rw [← fetchInstr_from s]
  exact step_next h

/-! ### What is as before outside a destination -/

/-- Where nothing is written, nothing outside any destination is. -/
theorem OutsideUnchanged.of_none {s t : State} (h : OutsideUnchanged none s t) (d : Option Destination) :
    OutsideUnchanged d s t := by
  obtain ⟨hregs, hmem⟩ := h
  match d with
  | none => exact ⟨hregs, hmem⟩
  | some (.byteRegister _) =>
    exact ⟨fun x _ => hregs.bytes x, ⟨hregs.words .sp, hregs.words .bp, hregs.words .si, hregs.words .di⟩, hmem⟩
  | some (.wordRegister _) => exact ⟨fun x _ => hregs.words x, hmem⟩
  | some (.byteAt _) => exact ⟨hregs, fun x _ => hmem x⟩
  | some (.wordAt _) => exact ⟨hregs, fun x _ _ => hmem x⟩

theorem RegistersUnchanged.trans {s t u : State} (h : RegistersUnchanged s t) (h' : RegistersUnchanged t u) :
    RegistersUnchanged s u :=
  ⟨fun r => (h'.bytes r).trans (h.bytes r), fun r => (h'.words r).trans (h.words r)⟩

theorem PointersUnchanged.trans {s t u : State} (h : PointersUnchanged s t) (h' : PointersUnchanged t u) :
    PointersUnchanged s u :=
  ⟨h'.sp.trans h.sp, h'.bp.trans h.bp, h'.si.trans h.si, h'.di.trans h.di⟩

theorem MemoryUnchanged.trans {s t u : State} (h : MemoryUnchanged s t) (h' : MemoryUnchanged t u) :
    MemoryUnchanged s u := fun a => (h' a).trans (h a)

/-- Two changes in a row with one destination are a change with this destination. -/
theorem OutsideUnchanged.trans {d : Option Destination} {s t u : State} (h : OutsideUnchanged d s t)
    (h' : OutsideUnchanged d t u) : OutsideUnchanged d s u := by
  match d with
  | none =>
    obtain ⟨hregs, hmem⟩ := h
    obtain ⟨hregs', hmem'⟩ := h'
    exact ⟨hregs.trans hregs', hmem.trans hmem'⟩
  | some (.byteRegister _) =>
    obtain ⟨hbytes, hptrs, hmem⟩ := h
    obtain ⟨hbytes', hptrs', hmem'⟩ := h'
    exact ⟨fun x hx => (hbytes' x hx).trans (hbytes x hx), hptrs.trans hptrs', hmem.trans hmem'⟩
  | some (.wordRegister _) =>
    obtain ⟨hwords, hmem⟩ := h
    obtain ⟨hwords', hmem'⟩ := h'
    exact ⟨fun x hx => (hwords' x hx).trans (hwords x hx), hmem.trans hmem'⟩
  | some (.byteAt _) =>
    obtain ⟨hregs, hmem⟩ := h
    obtain ⟨hregs', hmem'⟩ := h'
    exact ⟨hregs.trans hregs', fun x hx => (hmem' x hx).trans (hmem x hx)⟩
  | some (.wordAt _) =>
    obtain ⟨hregs, hmem⟩ := h
    obtain ⟨hregs', hmem'⟩ := h'
    exact ⟨hregs.trans hregs', fun x hlo hhi => (hmem' x hlo hhi).trans (hmem x hlo hhi)⟩

/-! Moving ip, an error and the accounting write no register and no memory. -/

theorem setIp_outsideUnchanged (v : Word) (s : State) : OutsideUnchanged none s (setIp v s) :=
  ⟨⟨fun r => readReg8_setIp r v s, fun r => readReg16_setIp r v s⟩, fun a => readByte_setIp a v s⟩

theorem raiseError_outsideUnchanged (e : Fault) (s : State) : OutsideUnchanged none s (raiseError e s) :=
  ⟨⟨fun r => by cases r <;> rfl, fun r => by cases r <;> rfl⟩, fun _ => rfl⟩

theorem chargeCycles_outsideUnchanged (k : Nat) (s : State) : OutsideUnchanged none s (chargeCycles k s) :=
  ⟨⟨fun r => by cases r <;> rfl, fun r => by cases r <;> rfl⟩, fun _ => rfl⟩

/-! A write of a register or a store writes there only (R22, R25, R53, R55). -/

theorem writeReg8_outsideUnchanged (r : Reg8) (v : Byte) (s : State) :
    OutsideUnchanged (some (.byteRegister r)) s (writeReg8 r v s) :=
  ⟨fun x hx => by rw [readReg8_writeReg8, if_neg hx],
    ⟨writeReg8_sp s r v, writeReg8_bp s r v, writeReg8_si s r v, writeReg8_di s r v⟩,
    fun a => readByte_writeReg8 a r v s⟩

theorem writeReg16_outsideUnchanged (r : Reg16) (v : Word) (s : State) :
    OutsideUnchanged (some (.wordRegister r)) s (writeReg16 r v s) :=
  ⟨fun x hx => by rw [readReg16_writeReg16, if_neg hx], fun a => readByte_writeReg16 a r v s⟩

theorem storeByte_outsideUnchanged (a : Word) (v : Byte) (s : State) :
    OutsideUnchanged (some (.byteAt a)) s (storeByte a v s) :=
  ⟨⟨fun r => readReg8_storeByte r a v s, fun r => readReg16_storeByte r a v s⟩,
    fun _ => readByte_storeByte_other s v⟩

theorem storeWord_outsideUnchanged (a v : Word) (s : State) :
    OutsideUnchanged (some (.wordAt a)) s (storeWord a v s) :=
  ⟨⟨fun r => readReg8_storeWord r a v s, fun r => readReg16_storeWord r a v s⟩,
    fun _ => readByte_storeWord_other s v⟩

/-! ### What an instruction writes (R124) -/

/-- A meaning writes the destination formed in the state it starts from. -/
theorem exec_outsideUnchanged {i : Instr} {s t : State} (h : exec i s = .next t) :
    OutsideUnchanged (destinationOf i s) s t := by
  cases i with
  | movRm8R8 dst src =>
    rw [exec_movRm8R8] at h; cases h
    cases dst with
    | reg r => exact writeReg8_outsideUnchanged r _ s
    | mem m => exact storeByte_outsideUnchanged _ _ s
  | movRm16R16 dst src =>
    rw [exec_movRm16R16] at h; cases h
    cases dst with
    | reg r => exact writeReg16_outsideUnchanged r _ s
    | mem m => exact storeWord_outsideUnchanged _ _ s
  | movR8Rm8 dst src => rw [exec_movR8Rm8] at h; cases h; exact writeReg8_outsideUnchanged dst _ s
  | movR16Rm16 dst src => rw [exec_movR16Rm16] at h; cases h; exact writeReg16_outsideUnchanged dst _ s
  | unimplementedOpcode op => rw [exec_unimplementedOpcode] at h; cases h; exact raiseError_outsideUnchanged _ s

/-- An effective address does not depend on ip (R81). -/
@[simp] theorem effectiveAddress_setIp (m : MemOperand) (v : Word) (s : State) :
    effectiveAddress m (setIp v s) = effectiveAddress m s := by
  have hbase (b : Base) : baseSum b (setIp v s) = baseSum b s := by cases b <;> rfl
  cases m <;> simp only [effectiveAddress, hbase]

/-- So it is the same destination before the fetch has moved ip and after. -/
@[simp] theorem destinationOf_setIp (i : Instr) (v : Word) (s : State) :
    destinationOf i (setIp v s) = destinationOf i s := by
  cases i with
  | movRm8R8 dst src => cases dst <;> simp only [destinationOf, effectiveAddress_setIp]
  | movRm16R16 dst src => cases dst <;> simp only [destinationOf, effectiveAddress_setIp]
  | movR8Rm8 dst src => rfl
  | movR16Rm16 dst src => rfl
  | unimplementedOpcode op => rfl

/-- A step on any bytes writes the destination of the instruction they decode to, besides ip and the engine: its fetch
and its accounting write nothing. -/
theorem step_outsideUnchanged {s t : State} {i : Instr} {k : Nat} (hdec : DecodesAtIp s i k) (h : step s = .next t) :
    OutsideUnchanged (destinationOf i s) s t := by
  obtain ⟨u, hu, rfl⟩ := step_next_of_decodesAtIp hdec h
  have hfetch := (setIp_outsideUnchanged (s.ip + BitVec.ofNat 16 k) s).of_none (destinationOf i s)
  have hexec := exec_outsideUnchanged hu
  rw [destinationOf_setIp] at hexec
  exact (hfetch.trans hexec).trans ((chargeCycles_outsideUnchanged k u).of_none _)

/-- Settles O29: the fetch moves ip and the accounting touches the engine alone, so what a step writes besides is what
the meaning of the MOV writes. -/
theorem movWritesOnlyItsDestination : Obligations.MovWritesOnlyItsDestination := by
  unfold Obligations.MovWritesOnlyItsDestination
  intro s t i k hdec hmov h
  have houtside := step_outsideUnchanged hdec h
  obtain ⟨u, hu, rfl⟩ := step_next_of_decodesAtIp hdec h
  obtain ⟨hexec, hip⟩ := exec_mov_systemUnchanged hmov hu
  have hsystem := hexec.of_setIp
  exact ⟨houtside, hip, hsystem.flags, hsystem.cs, hsystem.ds, hsystem.ss, hsystem.es, hsystem.config⟩

end Sys2Proof.Machine
end

section
/-! SUPPORT. The flags unit's `setFlag` (R133). -/

namespace Sys2Proof.Machine

/-- No flag stands at a reserved bit (R29, R30). -/
theorem flagsMask_getLsbD_flagPos (f : Flag) : flagsMask.getLsbD (flagPos f) = true := by cases f <;> decide

/-- Setting a flag's bit leaves every reserved bit of the word, whatever it holds (R30). -/
theorem putBit_flagPos_and_not_flagsMask (v : Word) (f : Flag) (b : Bool) :
    putBit v (flagPos f) b &&& ~~~flagsMask = v &&& ~~~flagsMask := by
  apply BitVec.eq_of_getLsbD_eq
  intro i hi
  simp only [BitVec.getLsbD_and, BitVec.getLsbD_not, getLsbD_putBit v (flagPos_lt f)]
  by_cases h : i = flagPos f
  · simp [h, flagsMask_getLsbD_flagPos]
  · simp [h]

@[simp] theorem reservedFlagsZero_setFlag (f : Flag) (b : Bool) (s : State) :
    reservedFlagsZero (setFlag f b s).flags = reservedFlagsZero s.flags := by
  rw [setFlag_flags, reservedFlagsZero, putBit_flagPos_and_not_flagsMask, reservedFlagsZero]

/-- Every bit of flags after `setFlag`: the flag's own holds the value, the others are kept. -/
theorem getLsbD_flags_setFlag (f : Flag) (b : Bool) (s : State) (n : Nat) :
    (setFlag f b s).flags.getLsbD n = if n = flagPos f then b else s.flags.getLsbD n := by
  rw [setFlag_flags, getLsbD_putBit _ (flagPos_lt f)]

/-- Settles O33: one rule gives every bit of flags after `setFlag`, and no flag stands at a reserved bit. -/
theorem setFlagWritesOneBit : Obligations.SetFlagWritesOneBit := by
  unfold Obligations.SetFlagWritesOneBit
  intro f b s
  refine ⟨?_, fun n hn => ?_, rfl, fun h => ?_⟩
  · rw [getFlag, getLsbD_flags_setFlag, if_pos rfl]
  · rw [getLsbD_flags_setFlag, if_neg hn]
  · rw [reservedFlagsZero_setFlag, h]

end Sys2Proof.Machine
end

section
/-! SUPPORT. The error a step reports, by its opcode byte (R151, R156). -/

namespace Sys2Proof.Machine

/-- An admitted opcode raises nothing: the error reported is the one from before (R156). -/
theorem step_error_of_admitted {s t : State}
    (hadm : (admittedOpcode s.config.movLoadForms (readByte s.ip s)).isSome = true) (h : step s = .next t) :
    t.report.error = s.report.error := by
  rw [step_report_of_admitted hadm h]

/-- Any other opcode raises UnimplementedOpcode, with the byte and its address, and the accounting keeps it (R151). -/
theorem step_error_of_not_admitted {s t : State}
    (hnone : admittedOpcode s.config.movLoadForms (readByte s.ip s) = none) (h : step s = .next t) :
    t.report.error = some (.unimplementedOpcode (readByte s.ip s) s.ip) := by
  rw [step_of_not_admitted hnone] at h
  cases h
  rw [chargeCycles_error, raiseError_error]

/-- Settles O39: the opcode byte is admitted or it is not, and each kind of step has its error. -/
theorem stepRaisesOnlyUnimplementedOpcode : Obligations.StepRaisesOnlyUnimplementedOpcode := by
  unfold Obligations.StepRaisesOnlyUnimplementedOpcode
  intro s t h
  exact ⟨fun hadm => step_error_of_admitted hadm h, fun hnone => step_error_of_not_admitted hnone h⟩

end Sys2Proof.Machine
end

section
/-! SUPPORT. The state after reset, read through the accessors, and what of the build it depends on (R180, R181). -/

namespace Sys2Proof.Machine

@[simp] theorem readReg8_resetWith (r : Reg8) (c : Config) : readReg8 r (State.resetWith c) = 0x00 := by
  cases r <;> rfl

theorem wordOfGpr_zero : wordOfGpr { hi := 0x00, lo := 0x00 } = 0x0000 := by decide

/-- The word views of AX to BX are their zero bytes joined; the pointers are 0 themselves. -/
@[simp] theorem readReg16_resetWith (r : Reg16) (c : Config) : readReg16 r (State.resetWith c) = 0x0000 := by
  cases r with
  | ax | cx | dx | bx => exact wordOfGpr_zero
  | sp | bp | si | di => rfl

/-- Memory after reset names no address, and an unlisted byte is 0 (R69). -/
@[simp] theorem readByte_resetWith (a : Word) (c : Config) : readByte a (State.resetWith c) = 0x00 := rfl

/-- Reset takes nothing from the build but the address and the code segment it starts at (R181). -/
theorem resetWith_setConfig {c d : Config} (hip : c.resetIp = d.resetIp) (hcs : c.resetCs = d.resetCs) :
    { State.resetWith c with config := d } = State.resetWith d := by
  simp only [State.resetWith, hip, hcs]

/-- Settles O1: registers and memory by their reads after reset, and every other field by its place in the record. -/
theorem resetSetsEveryPieceOfState : Obligations.ResetSetsEveryPieceOfState := by
  unfold Obligations.ResetSetsEveryPieceOfState
  refine ⟨fun s => ?_, rfl, rfl, rfl⟩
  exact ⟨fun r => readReg8_resetWith r s.config, fun r => readReg16_resetWith r s.config, rfl, rfl, rfl, rfl, rfl, rfl,
    fun a => readByte_resetWith a s.config, rfl, rfl⟩

/-- Settles O2: reset reads the build alone, and of the build only its two reset values. -/
theorem resetForgetsThePriorState : Obligations.ResetForgetsThePriorState := by
  unfold Obligations.ResetForgetsThePriorState
  intro s t hip hcs
  exact resetWith_setConfig hip hcs

end Sys2Proof.Machine
end

section
/-! SUPPORT. Decoder and encoder agree: an instruction of an admitted opcode is its opcode, its ModRM byte and a
displacement of the size that byte chooses, there and back (R70 to R90). -/

namespace Sys2Proof

/-! ### Displacements and their bytes (R78) -/

/-- The bytes of a displacement, the low byte first. -/
def Disp.bytes : Disp → List Byte
  | .absent => []
  | .d8 b => [b]
  | .d16 w => [lo8 w, hi8 w]

/-- The size of a displacement. -/
def Disp.size : Disp → DispSize
  | .absent => .zero
  | .d8 _ => .one
  | .d16 _ => .two

/-- The displacement has the size that the ModRM byte chooses. -/
def Disp.Fits (modrm : Byte) (disp : Disp) : Prop := dispSize (modField modrm) (rmField modrm) = disp.size

/-! ### The decoder (R85) -/

/-- An admitted opcode with its ModRM byte and a displacement that fits decodes to what is assembled of them. -/
theorem decode_of_fits {loads : Bool} {op modrm : Byte} {o : Opcode} {disp : Disp}
    (hop : admittedOpcode loads op = some o) (hfits : disp.Fits modrm) (rest : List Byte) :
    decode loads (op :: modrm :: disp.bytes ++ rest) = .ok (assemble o modrm disp, 2 + disp.bytes.length) := by
  rw [Disp.Fits] at hfits
  cases disp <;> simp [decode, hop, hfits, Disp.bytes, Disp.size]

/-- Where an admitted opcode decodes, a displacement that fits follows its ModRM byte. -/
theorem exists_disp_of_decode {loads : Bool} {op modrm : Byte} {o : Opcode} {ds : List Byte} {r : Instr × Nat}
    (hop : admittedOpcode loads op = some o) (h : decode loads (op :: modrm :: ds) = .ok r) :
    ∃ (disp : Disp) (rest : List Byte), ds = disp.bytes ++ rest ∧ disp.Fits modrm := by
  simp only [decode, hop] at h
  cases hsize : dispSize (modField modrm) (rmField modrm) <;> simp only [hsize] at h
  case zero => exact ⟨.absent, ds, rfl, hsize⟩
  case one =>
    match ds with
    | [] => cases h
    | d :: rest => exact ⟨.d8 d, rest, rfl, hsize⟩
  case two =>
    match ds with
    | [] => cases h
    | [_] => cases h
    | lo :: hi :: rest => exact ⟨.d16 (joinBytes hi lo), rest, by simp [Disp.bytes], hsize⟩

/-- What decodes is an opcode byte that is not admitted, or an admitted one with its ModRM byte and a displacement that
fits. -/
theorem decode_eq_ok {loads : Bool} {bytes : List Byte} {i : Instr} {k : Nat} (h : decode loads bytes = .ok (i, k)) :
    (∃ op rest, bytes = op :: rest ∧ admittedOpcode loads op = none ∧ i = .unimplementedOpcode op ∧ k = 1) ∨
    (∃ op o modrm disp rest, bytes = op :: modrm :: Disp.bytes disp ++ rest ∧ admittedOpcode loads op = some o ∧
      disp.Fits modrm ∧ i = assemble o modrm disp ∧ k = 2 + disp.bytes.length) := by
  match bytes with
  | [] => cases h
  | op :: tail =>
    cases hop : admittedOpcode loads op with
    | none =>
      cases h.symm.trans (decode_of_not_admitted hop tail)
      exact .inl ⟨op, tail, rfl, hop, rfl, rfl⟩
    | some o =>
      match tail with
      | [] => simp [decode, hop] at h
      | modrm :: ds =>
        obtain ⟨disp, rest, rfl, hfits⟩ := exists_disp_of_decode hop h
        cases h.symm.trans (decode_of_fits hop hfits rest)
        exact .inr ⟨op, o, modrm, disp, rest, rfl, hop, hfits, rfl, rfl⟩

/-- Settles O10: an opcode byte that is not admitted is decoded alone, and no admitted one is assembled into the
illegal-opcode instruction. -/
theorem illegalOpcodesAreNamed : Obligations.IllegalOpcodesAreNamed := by
  unfold Obligations.IllegalOpcodesAreNamed
  intro loads op rest
  refine ⟨fun hop => decode_of_not_admitted hop rest, fun b k h => ?_⟩
  obtain ⟨op', rest', hbytes, hop, hi, hk⟩ | ⟨_, o, modrm, disp, _, -, -, -, hi, -⟩ := decode_eq_ok h
  · cases hbytes
    cases hi
    exact ⟨rfl, hk, hop⟩
  · exact absurd hi.symm (assemble_ne_unimplementedOpcode o modrm disp b)

/-! ### The displacement size by mod and rm (R78) -/

theorem dispSize_eq_zero {mod : BitVec 2} {rm : BitVec 3} :
    dispSize mod rm = .zero ↔ mod = 0b11 ∨ mod = 0b00 ∧ rm ≠ 0b110 := by
  revert mod rm; decide

theorem dispSize_eq_one {mod : BitVec 2} {rm : BitVec 3} : dispSize mod rm = .one ↔ mod = 0b01 := by
  revert mod rm; decide

theorem dispSize_eq_two {mod : BitVec 2} {rm : BitVec 3} :
    dispSize mod rm = .two ↔ mod = 0b10 ∨ mod = 0b00 ∧ rm = 0b110 := by
  revert mod rm; decide

/-- A register form has no displacement (R77). -/
theorem Disp.Fits.eq_absent {modrm : Byte} {disp : Disp} (hfits : disp.Fits modrm) (hmod : modField modrm = 0b11) :
    disp = .absent := by
  have hzero : disp.size = .zero := hfits.symm.trans (dispSize_eq_zero.mpr (.inl hmod))
  cases disp with
  | absent => rfl
  | d8 _ => cases hzero
  | d16 _ => cases hzero

/-- The field 0b110 is the one that names BP alone (R80). -/
theorem baseOfField_eq_bp {rm : BitVec 3} : baseOfField rm = .bp ↔ rm = 0b110 := by
  revert rm; decide

/-! ### What the fields and a displacement stand for, and its encoding (R70, R83) -/

/-- The operand read is well formed, and its encoding is the ModRM byte and the displacement it was read from. -/
theorem memOperand_encoding {modrm : Byte} {disp : Disp} (hmod : modField modrm ≠ 0b11) (hfits : disp.Fits modrm) :
    (memOperand (modField modrm) (rmField modrm) disp).wellFormed = true ∧
    encodeMem (regField modrm) (memOperand (modField modrm) (rmField modrm) disp) = modrm :: disp.bytes := by
  have hbyte := modrmByte_fields modrm
  rw [Disp.Fits] at hfits
  cases disp with
  | absent =>
    obtain ⟨hzero, hrm⟩ := (dispSize_eq_zero.mp hfits).resolve_left hmod
    rw [hzero] at hbyte
    exact ⟨bne_iff_ne.mpr (mt baseOfField_eq_bp.mp hrm), by
      rw [hzero, memOperand, encodeMem, fieldOfBase_baseOfField, hbyte, Disp.bytes]⟩
  | d8 d =>
    rw [dispSize_eq_one.mp hfits] at hbyte
    exact ⟨rfl, by rw [memOperand, encodeMem, fieldOfBase_baseOfField, hbyte, Disp.bytes]⟩
  | d16 d =>
    obtain hmod2 | ⟨hmod0, hrm⟩ := dispSize_eq_two.mp hfits
    · rw [hmod2] at hbyte
      rw [memOperand, hmod2, if_neg (by decide), encodeMem, fieldOfBase_baseOfField, hbyte, Disp.bytes]
      exact ⟨rfl, rfl⟩
    · rw [hmod0, hrm] at hbyte
      rw [memOperand, hmod0, if_pos rfl, encodeMem, hbyte, Disp.bytes]
      exact ⟨rfl, rfl⟩

theorem rm8Operand_encoding {modrm : Byte} {disp : Disp} (hfits : disp.Fits modrm) :
    (rm8Operand (modField modrm) (rmField modrm) disp).wellFormed = true ∧
    encodeRm8 (regField modrm) (rm8Operand (modField modrm) (rmField modrm) disp) = modrm :: disp.bytes := by
  by_cases hmod : modField modrm = 0b11
  · have hbyte := modrmByte_fields modrm
    rw [hmod] at hbyte
    rw [rm8Operand, if_pos hmod, encodeRm8, fieldOfReg8_reg8OfField, hbyte, hfits.eq_absent hmod, Disp.bytes]
    exact ⟨rfl, rfl⟩
  · rw [rm8Operand, if_neg hmod]
    exact memOperand_encoding hmod hfits

theorem rm16Operand_encoding {modrm : Byte} {disp : Disp} (hfits : disp.Fits modrm) :
    (rm16Operand (modField modrm) (rmField modrm) disp).wellFormed = true ∧
    encodeRm16 (regField modrm) (rm16Operand (modField modrm) (rmField modrm) disp) = modrm :: disp.bytes := by
  by_cases hmod : modField modrm = 0b11
  · have hbyte := modrmByte_fields modrm
    rw [hmod] at hbyte
    rw [rm16Operand, if_pos hmod, encodeRm16, fieldOfReg16_reg16OfField, hbyte, hfits.eq_absent hmod, Disp.bytes]
    exact ⟨rfl, rfl⟩
  · rw [rm16Operand, if_neg hmod]
    exact memOperand_encoding hmod hfits

theorem encode_assemble (o : Opcode) {modrm : Byte} {disp : Disp} (hfits : disp.Fits modrm) :
    encode (assemble o modrm disp) = opcodeByte o :: modrm :: disp.bytes := by
  obtain ⟨-, h8⟩ := rm8Operand_encoding hfits
  obtain ⟨-, h16⟩ := rm16Operand_encoding hfits
  cases o <;> simp [assemble, encode, opcodeByte, h8, h16]

/-- A build admits the opcode byte of a store form, and that of a load form where it has the load forms (R86). -/
theorem admittedOpcode_opcodeByte {loads : Bool} {o : Opcode} :
    admittedOpcode loads (opcodeByte o) = some o ↔ loads = true ∨ o = .op88 ∨ o = .op89 := by
  revert loads
  cases o <;> decide

theorem wellFormed_assemble {loads : Bool} {o : Opcode} (hop : admittedOpcode loads (opcodeByte o) = some o)
    {modrm : Byte} {disp : Disp} (hfits : disp.Fits modrm) : (assemble o modrm disp).wellFormed loads = true := by
  obtain ⟨h8, -⟩ := rm8Operand_encoding hfits
  obtain ⟨h16, -⟩ := rm16Operand_encoding hfits
  rw [admittedOpcode_opcodeByte] at hop
  cases o with
  | op88 => exact h8
  | op89 => exact h16
  | op8A => exact Bool.and_eq_true_iff.mpr ⟨by simpa using hop, h8⟩
  | op8B => exact Bool.and_eq_true_iff.mpr ⟨by simpa using hop, h16⟩

/-- The encoder writes as many bytes as the length table gives (R71). -/
theorem encode_length (i : Instr) : (encode i).length = i.length := by
  cases i with
  | movRm8R8 dst src => exact Laws.EncodedLength.movRm8R8 dst src
  | movRm16R16 dst src => exact Laws.EncodedLength.movRm16R16 dst src
  | movR8Rm8 dst src => exact Laws.EncodedLength.movR8Rm8 dst src
  | movR16Rm16 dst src => exact Laws.EncodedLength.movR16Rm16 dst src
  | unimplementedOpcode op => exact Laws.EncodedLength.unimplementedOpcode op

/-- The length of what is assembled: the opcode byte, the ModRM byte and the displacement. -/
theorem assemble_length (o : Opcode) {modrm : Byte} {disp : Disp} (hfits : disp.Fits modrm) :
    (assemble o modrm disp).length = 2 + disp.bytes.length := by
  rw [← encode_length, encode_assemble o hfits, List.length_cons, List.length_cons, Nat.add_comm 2]

/-- Settles O13: what decodes is the illegal byte alone, or is assembled from bytes that are its encoding. -/
theorem decodedBytesAreTheEncoding : Obligations.DecodedBytesAreTheEncoding := by
  unfold Obligations.DecodedBytesAreTheEncoding
  intro loads bytes i k h
  obtain ⟨op, rest, rfl, hop, rfl, rfl⟩ | ⟨op, o, modrm, disp, rest, rfl, hop, hfits, rfl, rfl⟩ := decode_eq_ok h
  · exact ⟨Option.isNone_iff_eq_none.mpr hop, rfl, rfl⟩
  · obtain rfl := admittedOpcode_eq_some hop
    refine ⟨wellFormed_assemble hop hfits, (assemble_length o hfits).symm, ?_⟩
    rw [encode_assemble o hfits]
    exact List.take_left' (Nat.add_comm disp.bytes.length 2)

/-! ### Every well-formed instruction is one that is read (R82, R83) -/

theorem fits_modrmByte {mod : BitVec 2} {reg rm : BitVec 3} {disp : Disp} :
    disp.Fits (modrmByte mod reg rm) ↔ dispSize mod rm = disp.size := by
  rw [Disp.Fits, modField_modrmByte, rmField_modrmByte]

/-- Every well-formed memory operand, beside every reg field, is read from a ModRM byte and a displacement. -/
theorem MemOperand.exists_modrm {m : MemOperand} (hm : m.wellFormed = true) (reg : BitVec 3) :
    ∃ modrm disp, Disp.Fits modrm disp ∧ regField modrm = reg ∧ modField modrm ≠ 0b11 ∧
      memOperand (modField modrm) (rmField modrm) disp = m := by
  cases m with
  | base b =>
    have hrm : fieldOfBase b ≠ 0b110 := fun h => bne_iff_ne.mp hm (by rw [← baseOfField_fieldOfBase b, h]; rfl)
    exact ⟨modrmByte 0b00 reg (fieldOfBase b), .absent,
      fits_modrmByte.mpr (dispSize_eq_zero.mpr (.inr ⟨rfl, hrm⟩)), by simp, by simp, by simp [memOperand]⟩
  | disp8 b d =>
    exact ⟨modrmByte 0b01 reg (fieldOfBase b), .d8 d,
      fits_modrmByte.mpr (dispSize_eq_one.mpr rfl), by simp, by simp, by simp [memOperand]⟩
  | disp16 b d =>
    exact ⟨modrmByte 0b10 reg (fieldOfBase b), .d16 d,
      fits_modrmByte.mpr (dispSize_eq_two.mpr (.inl rfl)), by simp, by simp, by simp [memOperand]⟩
  | direct a =>
    exact ⟨modrmByte 0b00 reg 0b110, .d16 a,
      fits_modrmByte.mpr (dispSize_eq_two.mpr (.inr ⟨rfl, rfl⟩)), by simp, by simp, by simp [memOperand]⟩

/-- A register form, beside every reg field and of every rm field, is read from its ModRM byte (R77). -/
theorem fits_registerForm (reg rm : BitVec 3) : Disp.Fits (modrmByte 0b11 reg rm) .absent :=
  fits_modrmByte.mpr (dispSize_eq_zero.mpr (.inl rfl))

theorem Rm8.exists_modrm {x : Rm8} (hx : x.wellFormed = true) (reg : BitVec 3) :
    ∃ modrm disp, Disp.Fits modrm disp ∧ regField modrm = reg ∧
      rm8Operand (modField modrm) (rmField modrm) disp = x := by
  cases x with
  | reg r => exact ⟨_, .absent, fits_registerForm reg (fieldOfReg8 r), by simp, by simp [rm8Operand]⟩
  | mem m =>
    obtain ⟨modrm, disp, hfits, hreg, hmod, hm⟩ := MemOperand.exists_modrm hx reg
    exact ⟨modrm, disp, hfits, hreg, by rw [rm8Operand, if_neg hmod, hm]⟩

theorem Rm16.exists_modrm {x : Rm16} (hx : x.wellFormed = true) (reg : BitVec 3) :
    ∃ modrm disp, Disp.Fits modrm disp ∧ regField modrm = reg ∧
      rm16Operand (modField modrm) (rmField modrm) disp = x := by
  cases x with
  | reg r => exact ⟨_, .absent, fits_registerForm reg (fieldOfReg16 r), by simp, by simp [rm16Operand]⟩
  | mem m =>
    obtain ⟨modrm, disp, hfits, hreg, hmod, hm⟩ := MemOperand.exists_modrm hx reg
    exact ⟨modrm, disp, hfits, hreg, by rw [rm16Operand, if_neg hmod, hm]⟩

/-- A well-formed instruction is the illegal-opcode instruction of a byte that is not admitted, or is assembled from an
admitted opcode. -/
theorem Instr.eq_assemble_of_wellFormed {loads : Bool} {i : Instr} (hi : i.wellFormed loads = true) :
    (∃ op, i = .unimplementedOpcode op ∧ admittedOpcode loads op = none) ∨
    (∃ o modrm disp, i = assemble o modrm disp ∧ admittedOpcode loads (opcodeByte o) = some o ∧
      Disp.Fits modrm disp) := by
  cases i with
  | movRm8R8 dst src =>
    obtain ⟨modrm, disp, hfits, hreg, hdst⟩ := Rm8.exists_modrm hi (fieldOfReg8 src)
    exact .inr ⟨.op88, modrm, disp, by simp [assemble, hreg, hdst], admittedOpcode_opcodeByte.mpr (by simp), hfits⟩
  | movRm16R16 dst src =>
    obtain ⟨modrm, disp, hfits, hreg, hdst⟩ := Rm16.exists_modrm hi (fieldOfReg16 src)
    exact .inr ⟨.op89, modrm, disp, by simp [assemble, hreg, hdst], admittedOpcode_opcodeByte.mpr (by simp), hfits⟩
  | movR8Rm8 dst src =>
    obtain ⟨hloads, hsrc⟩ := Bool.and_eq_true_iff.mp hi
    obtain ⟨modrm, disp, hfits, hreg, hsrc⟩ := Rm8.exists_modrm hsrc (fieldOfReg8 dst)
    exact .inr ⟨.op8A, modrm, disp, by simp [assemble, hreg, hsrc],
      admittedOpcode_opcodeByte.mpr (.inl hloads), hfits⟩
  | movR16Rm16 dst src =>
    obtain ⟨hloads, hsrc⟩ := Bool.and_eq_true_iff.mp hi
    obtain ⟨modrm, disp, hfits, hreg, hsrc⟩ := Rm16.exists_modrm hsrc (fieldOfReg16 dst)
    exact .inr ⟨.op8B, modrm, disp, by simp [assemble, hreg, hsrc],
      admittedOpcode_opcodeByte.mpr (.inl hloads), hfits⟩
  | unimplementedOpcode op => exact .inl ⟨op, rfl, Option.isNone_iff_eq_none.mp hi⟩

/-- Settles O12: a well-formed instruction is assembled from an admitted opcode, a ModRM byte and a displacement that
fits, which are its encoding and decode to what is assembled of them. -/
theorem decodeInvertsEncode : Obligations.DecodeInvertsEncode := by
  unfold Obligations.DecodeInvertsEncode
  intro loads i rest hi
  obtain ⟨op, rfl, hop⟩ | ⟨o, modrm, disp, rfl, hop, hfits⟩ := Instr.eq_assemble_of_wellFormed hi
  · exact decode_of_not_admitted hop rest
  · rw [encode_assemble o hfits, assemble_length o hfits]
    exact decode_of_fits hop hfits rest

/-! ### The register fields and sample words (R24, R70 to R83) -/

/-- Settles O4, field value by field value. -/
theorem registerFieldsNameTheTable : Obligations.RegisterFieldsNameTheTable := by
  unfold Obligations.RegisterFieldsNameTheTable
  intro n s
  unfold reg8OfField reg16OfField
  have hn := n.isLt
  generalize n.toNat = k at hn ⊢
  interval_cases k <;> exact ⟨rfl, rfl⟩

/-- Settles O14: the decoder is run on each word. -/
theorem sampleWordsDecodeAsTheirRowsSay : Obligations.SampleWordsDecodeAsTheirRowsSay := by
  unfold Obligations.SampleWordsDecodeAsTheirRowsSay
  decide

end Sys2Proof
end

section
/-! SUPPORT. The invariant: canonical memory, reserved flag bits 0, Running exactly while budget is left (R30, R39, log
entry 9). -/

namespace Sys2Proof.Machine

open Sys2Proof.Statements

/-! ### Canonical memories (log entry 9) -/

theorem wfFrom_cons {lo : Nat} {c : Host.Cell} {m : Memory} :
    Memory.wfFrom lo (c :: m) = true ↔
      lo ≤ c.1 ∧ c.1 < memorySize ∧ c.2 ≠ unlistedByte ∧ Memory.wfFrom (c.1 + 1) m = true := by
  simp only [Memory.wfFrom, Bool.and_eq_true, decide_eq_true_eq, bne_iff_ne, and_assoc]

theorem lookup_cons_self (c : Host.Cell) (m : Memory) : Memory.lookup (c :: m) c.1 = c.2 := if_pos rfl

theorem lookup_cons_of_ne {c : Host.Cell} {a : Nat} (h : c.1 ≠ a) (m : Memory) :
    Memory.lookup (c :: m) a = m.lookup a := if_neg h

/-- A canonical list names no address below its first. -/
theorem lookup_of_lt {m : Memory} {lo a : Nat} (hm : Memory.wfFrom lo m = true) (ha : a < lo) :
    m.lookup a = unlistedByte := by
  induction m generalizing lo with
  | nil => rfl
  | cons c rest ih =>
    obtain ⟨hlo, -, -, hrest⟩ := wfFrom_cons.mp hm
    rw [lookup_cons_of_ne (by omega)]
    exact ih hrest (by omega)

/-- A canonical list holds at its first entry what no list that begins above it reads there. -/
theorem exists_lookup_ne_of_lt {c : Host.Cell} {m m' : Memory} {lo lo' : Nat}
    (hm : Memory.wfFrom lo (c :: m) = true) (hm' : Memory.wfFrom lo' m' = true) (hlt : c.1 < lo') :
    ∃ a < memorySize, Memory.lookup (c :: m) a ≠ m'.lookup a := by
  obtain ⟨-, hsize, hlisted, -⟩ := wfFrom_cons.mp hm
  exact ⟨c.1, hsize, by rwa [lookup_cons_self, lookup_of_lt hm' hlt]⟩

/-- Lists in canonical form that read alike have the same first entry, and what follows it reads alike. -/
theorem eq_of_lookup_eq {m m' : Memory} {lo lo' : Nat} (hm : Memory.wfFrom lo m = true)
    (hm' : Memory.wfFrom lo' m' = true) (h : ∀ a < memorySize, m.lookup a = m'.lookup a) : m = m' := by
  induction m generalizing m' lo lo' with
  | nil =>
    cases m' with
    | nil => rfl
    | cons c' rest' =>
      obtain ⟨a, ha, hne⟩ := exists_lookup_ne_of_lt hm' (lo' := c'.1 + 1) (m' := []) rfl (by omega)
      exact absurd (h a ha).symm hne
  | cons c rest ih =>
    cases m' with
    | nil =>
      obtain ⟨a, ha, hne⟩ := exists_lookup_ne_of_lt hm (lo' := c.1 + 1) (m' := []) rfl (by omega)
      exact absurd (h a ha) hne
    | cons c' rest' =>
      obtain ⟨-, hsize, hlisted, hrest⟩ := wfFrom_cons.mp hm
      obtain ⟨-, hsize', hlisted', hrest'⟩ := wfFrom_cons.mp hm'
      obtain hlt | heq | hgt := Nat.lt_trichotomy c.1 c'.1
      · obtain ⟨a, ha, hne⟩ := exists_lookup_ne_of_lt hm
          (wfFrom_cons.mpr ⟨Nat.le_refl _, hsize', hlisted', hrest'⟩) hlt
        exact absurd (h a ha) hne
      · have hbyte : c.2 = c'.2 := by
          rw [← lookup_cons_self c rest, h c.1 hsize, heq, lookup_cons_self]
        have htail : ∀ a < memorySize, Memory.lookup rest a = Memory.lookup rest' a := by
          intro a ha
          by_cases hca : c.1 = a
          · rw [lookup_of_lt hrest (by omega), lookup_of_lt hrest' (by omega)]
          · rw [← lookup_cons_of_ne hca, h a ha, lookup_cons_of_ne (heq ▸ hca)]
        rw [Prod.ext heq hbyte, ih hrest hrest' htail]
      · obtain ⟨a, ha, hne⟩ := exists_lookup_ne_of_lt hm'
          (wfFrom_cons.mpr ⟨Nat.le_refl _, hsize, hlisted, hrest⟩) hgt
        exact absurd (h a ha).symm hne

/-- Settles O8, by induction on the first list: where the first entries differ, the lower address tells the lists
apart. -/
theorem canonicalMemoriesThatReadAlikeAreEqual : Obligations.CanonicalMemoriesThatReadAlikeAreEqual := by
  unfold Obligations.CanonicalMemoriesThatReadAlikeAreEqual
  exact fun m m' hm hm' h => eq_of_lookup_eq hm hm' h

/-! ### The three parts of the invariant -/

theorem engineConsistent_iff {s : State} : engineConsistent s = true ↔ (s.mode = .running ↔ 0 < s.budget) := by
  rw [engineConsistent, beq_iff_eq, decide_eq_decide]

theorem engineConsistent_of_spent {s : State} (hidle : s.mode = .idle) (hspent : s.budget = 0) :
    engineConsistent s = true := by
  simp [engineConsistent, hidle, hspent]

theorem State.Inv.budget_eq_zero {s : State} (hs : s.Inv) (hidle : s.mode = .idle) : s.budget = 0 := by
  have hrun := engineConsistent_iff.mp hs.engine
  rw [hidle] at hrun
  exact Nat.eq_zero_of_not_pos fun hpos => Mode.noConfusion (hrun.mpr hpos)

theorem resetWith_inv (c : Config) : (State.resetWith c).Inv :=
  ⟨reset_mem_wf c, (by decide : reservedFlagsZero 0x0000 = true), rfl⟩

/-- Settles O49: memory lists nothing, flags are 0, and the engine is Idle without budget. -/
theorem resetMeetsTheInvariant : Obligations.ResetMeetsTheInvariant := by
  unfold Obligations.ResetMeetsTheInvariant
  exact ⟨resetWith_inv, resetWith_inv defaultConfig⟩

/-! ### Steps -/

/-- A meaning writes memory only by stores. -/
theorem exec_keeps_wf {i : Instr} {s t : State} (hs : s.mem.wf = true) (h : exec i s = .next t) : t.mem.wf = true := by
  cases i with
  | movRm8R8 dst src => rw [exec_movRm8R8] at h; cases h; exact writeLoc8_keeps_wf _ _ hs
  | movRm16R16 dst src => rw [exec_movRm16R16] at h; cases h; exact writeLoc16_keeps_wf _ _ hs
  | movR8Rm8 dst src => rw [exec_movR8Rm8] at h; cases h; exact writeLoc8_keeps_wf (.reg dst) _ hs
  | movR16Rm16 dst src => rw [exec_movR16Rm16] at h; cases h; exact writeLoc16_keeps_wf (.reg dst) _ hs
  | unimplementedOpcode op => rw [exec_unimplementedOpcode] at h; cases h; exact hs

theorem step_keeps_wf {s t : State} (hs : s.mem.wf = true) (h : step s = .next t) : t.mem.wf = true := by
  obtain ⟨u, hu, rfl⟩ := step_next h
  rw [chargeCycles_mem]
  refine exec_keeps_wf ?_ hu
  rwa [fetchInstr_from s, setIp_mem]

/-- The accounting stops a Running engine exactly when it spends the budget, an error always, and Idle stays Idle. -/
theorem step_keeps_engineConsistent {s t : State} (hs : engineConsistent s = true) (h : step s = .next t) :
    engineConsistent t = true := by
  cases ho : admittedOpcode s.config.movLoadForms (readByte s.ip s) with
  | none => rw [step_of_not_admitted ho] at h; cases h; rfl
  | some o =>
    obtain ⟨hbudget, hmode⟩ := step_engine_of_admitted (by rw [ho]; rfl) h
    rw [engineConsistent_iff] at hs ⊢
    rw [hmode, hbudget]
    by_cases hrun : s.mode = .running ∧ 0 < s.budget - cyclesOf s
    · rw [if_pos hrun]
      exact iff_of_true rfl hrun.2
    · rw [if_neg hrun]
      exact iff_of_false Mode.noConfusion fun hpos => hrun ⟨hs.mpr (by omega), hpos⟩

/-- Settles O50, one part of the invariant at a time. -/
theorem stepKeepsTheInvariant : Obligations.StepKeepsTheInvariant := by
  unfold Obligations.StepKeepsTheInvariant
  intro s t hs h
  have hflags : reservedFlagsZero t.flags = true := by rw [step_flags h]; exact hs.reservedFlags
  exact ⟨step_keeps_wf hs.memory h, hflags, step_keeps_engineConsistent hs.engine h⟩

theorem step_config {s t : State} (h : step s = .next t) : t.config = s.config := by
  cases ho : admittedOpcode s.config.movLoadForms (readByte s.ip s) with
  | none => rw [step_of_not_admitted ho] at h; cases h; rfl
  | some o =>
    obtain ⟨u, rfl, hsystem, -⟩ := step_of_admitted (by rw [ho]; rfl) h
    rw [chargeCycles_config, hsystem.config]

theorem afterStep_inv {s : State} (hs : s.Inv) : (afterStep s).Inv :=
  stepKeepsTheInvariant s (afterStep s) hs (step_eq_next_afterStep s)

@[simp] theorem afterStep_config (s : State) : (afterStep s).config = s.config :=
  step_config (step_eq_next_afterStep s)

/-! ### The host's operations (R163) -/

/-- A property that every step keeps holds at the end of the loop. -/
theorem runLoop_induction {P : State → Prop} (hstep : ∀ s, P s → P (afterStep s)) (fuel : Nat) {s : State}
    (hs : P s) : P (runLoop fuel s) := by
  induction fuel generalizing s with
  | zero => exact hs
  | succ fuel ih =>
    obtain hspent | hbudget := Nat.eq_zero_or_pos s.budget
    · rwa [runLoop_of_spent hspent]
    · rw [runLoop_of_budget hbudget]
      exact ih (hstep s hs)

/-- What a host operation has to leave: the invariant, an Idle engine, and the build. -/
structure BetweenCalls (c : Config) (s : State) : Prop where
  inv : s.Inv
  idle : s.mode = .idle
  config : s.config = c

theorem hostExecute_betweenCalls (n : Nat) {s : State} (hs : s.Inv) : BetweenCalls s.config (hostExecute n s) := by
  obtain ⟨-, hidle⟩ := hostExecute_spends_budget n s
  have hengine : engineConsistent (beginExecute n s) = true := by
    rw [engineConsistent_iff]
    obtain rfl | hpos := Nat.eq_zero_or_pos n
    · exact iff_of_false Mode.noConfusion (Nat.lt_irrefl 0)
    · exact iff_of_true (if_neg hpos.ne') hpos
  have hbegin : (beginExecute n s).Inv := ⟨hs.memory, hs.reservedFlags, hengine⟩
  exact ⟨runLoop_induction (P := State.Inv) (fun _ => afterStep_inv) n hbegin, hidle,
    runLoop_induction (P := fun t => t.config = s.config) (fun t ht => (afterStep_config t).trans ht) n rfl⟩

theorem hostStep_betweenCalls {s : State} (hs : s.Inv) (hidle : s.mode = .idle) :
    BetweenCalls s.config (hostStep s) := by
  have hbegin : (beginStep s).Inv :=
    ⟨hs.memory, hs.reservedFlags, engineConsistent_of_spent rfl (hs.budget_eq_zero hidle)⟩
  exact ⟨afterStep_inv hbegin, step_idle_of_idle (step_eq_next_afterStep _) rfl, afterStep_config _⟩

/-- A host write that touches neither engine nor build and keeps the other two parts of the invariant. -/
theorem BetweenCalls.of_write {s t : State} (hs : s.Inv) (hidle : s.mode = .idle) (hmem : t.mem.wf = true)
    (hflags : reservedFlagsZero t.flags = true) (hmode : t.mode = s.mode) (hbudget : t.budget = s.budget)
    (hconfig : t.config = s.config) : BetweenCalls s.config t :=
  ⟨⟨hmem, hflags, by rw [engineConsistent, hmode, hbudget]; exact hs.engine⟩, hmode.trans hidle, hconfig⟩

/-- A masked write that keeps some bits and writes no reserved one leaves the reserved bits 0 (R31). -/
theorem reservedFlagsZero_maskedWrite {f keep write : Word} (hf : reservedFlagsZero f = true)
    (hwrite : write &&& ~~~flagsMask = 0) (x : Word) :
    reservedFlagsZero ((f &&& keep) ||| (x &&& write)) = true := by
  have hsplit : ((f &&& keep) ||| (x &&& write)) &&& ~~~flagsMask =
      (f &&& ~~~flagsMask) &&& keep ||| x &&& (write &&& ~~~flagsMask) := by
    apply BitVec.eq_of_getLsbD_eq
    intro i hi
    simp only [BitVec.getLsbD_and, BitVec.getLsbD_or, Bool.and_or_distrib_right, Bool.and_assoc,
      Bool.and_comm (keep.getLsbD i)]
  rw [reservedFlagsZero, beq_iff_eq] at hf ⊢
  simp [hsplit, hf, hwrite]

theorem setByte_betweenCalls {sel : Selector} {b : Byte} {s t : State} (hs : s.Inv) (hidle : s.mode = .idle)
    (h : setByte sel b s = .ok t) : BetweenCalls s.config t := by
  match sel with
  | .byte (.reg r) =>
    cases h
    exact .of_write hs hidle (by simpa using hs.memory) (by simpa using hs.reservedFlags) (by simp) (by simp) (by simp)
  | .byte .flagsL =>
    cases h
    exact .of_write hs hidle hs.memory (reservedFlagsZero_maskedWrite hs.reservedFlags (by decide) _) rfl rfl rfl
  | .byte .flagsH =>
    cases h
    exact .of_write hs hidle hs.memory (reservedFlagsZero_maskedWrite hs.reservedFlags (by decide) _) rfl rfl rfl
  | .word _ => cases h
  | .seg _ => cases h

theorem setWord_betweenCalls {sel : Selector} {v : Word} {s t : State} (hs : s.Inv) (hidle : s.mode = .idle)
    (h : setWord sel v s = .ok t) : BetweenCalls s.config t := by
  have hflags : reservedFlagsZero t.flags = true := by rw [setWord_flags h]; exact hs.reservedFlags
  match sel with
  | .word (.reg r) =>
    cases h; exact .of_write hs hidle (by simpa using hs.memory) hflags (by simp) (by simp) (by simp)
  | .word .ip => cases h; exact .of_write hs hidle hs.memory hflags rfl rfl rfl
  | .seg r => cases h; exact .of_write hs hidle (by simpa using hs.memory) hflags (by simp) (by simp) (by simp)
  | .byte _ => cases h

/-- A write that fails changes nothing (R36). -/
theorem writeReply_betweenCalls {s : State} (hs : BetweenCalls s.config s) {r : Except Fault State}
    (h : ∀ t, r = .ok t → BetweenCalls s.config t) : BetweenCalls s.config (writeReply s r).1 := by
  cases r with
  | ok t => exact h t rfl
  | error e => exact hs

theorem hostCall_betweenCalls (op : HostOp) {s : State} (hs : s.Inv) (hidle : s.mode = .idle) :
    BetweenCalls s.config (hostCall op s).1 := by
  have hsame : BetweenCalls s.config s := ⟨hs, hidle, rfl⟩
  cases op with
  | reset => exact ⟨resetWith_inv s.config, rfl, rfl⟩
  | execute n => exact hostExecute_betweenCalls n hs
  | step => exact hostStep_betweenCalls hs hidle
  | writeByte a b => exact .of_write hs hidle (storeByte_keeps_wf hs.memory a b) hs.reservedFlags rfl rfl rfl
  | readByte a => exact hsame
  | getByte sel => rwa [hostCall, readReply_state]
  | setByte sel b => exact writeReply_betweenCalls hsame fun _ => setByte_betweenCalls hs hidle
  | getWord sel => rwa [hostCall, readReply_state]
  | setWord sel v => exact writeReply_betweenCalls hsame fun _ => setWord_betweenCalls hs hidle

/-- Settles O51: `execute` and `step()` are steps, and every other operation is a reset, a read or a write of one
location. -/
theorem hostOperationsKeepTheInvariant : Obligations.HostOperationsKeepTheInvariant := by
  unfold Obligations.HostOperationsKeepTheInvariant
  intro op s hs hidle
  obtain ⟨hinv, hidle', hconfig⟩ := hostCall_betweenCalls op hs hidle
  exact ⟨hinv, hidle', hconfig⟩

end Sys2Proof.Machine
end

section
/-! SUPPORT. The fetch and the step by the bytes at ip, and bytes placed there (R85, R101, R151, log entry 2). -/

namespace Sys2Proof.Machine

open Sys2Proof.Statements

/-! ### The fetch is the decoder on the bytes at ip (R85) -/

/-- The state after a fetch that consumed `k` bytes, as R89 gives it. -/
theorem fetchInstr_eq_iff {s : State} {i : Instr} {k : Nat} :
    fetchInstr s = (i, { state := setIp (s.ip + BitVec.ofNat 16 k) s, consumed := k }) ↔
      (fetchInstr s).1 = i ∧ (fetchInstr s).2.consumed = k := by
  constructor
  · intro h
    rw [h]
    exact ⟨rfl, rfl⟩
  · rintro ⟨rfl, rfl⟩
    rw [← fetchInstr_from s]

theorem decodesAtIp_iff {s : State} {i : Instr} {k : Nat} :
    DecodesAtIp s i k ↔ (fetchInstr s).1 = i ∧ (fetchInstr s).2.consumed = k := by
  rw [DecodesAtIp, decode_bytesAtIp, Except.ok.injEq, Prod.mk.injEq]

/-- Settles O19: both say which instruction is fetched and in how many bytes, and the state is then fixed. -/
theorem fetchAgreesWithTheByteDecoder : Obligations.FetchAgreesWithTheByteDecoder := by
  unfold Obligations.FetchAgreesWithTheByteDecoder
  intro s i k
  exact decodesAtIp_iff.trans fetchInstr_eq_iff.symm

/-! ### The step (R101) -/

/-- Settles O20: the step is that of the instruction the bytes at ip decode to, whose meaning answers a next state. -/
theorem stepRunsTheDecodedInstruction : Obligations.StepRunsTheDecodedInstruction := by
  unfold Obligations.StepRunsTheDecodedInstruction
  intro s i k hdec
  obtain ⟨u, hu, ht⟩ := step_next_of_decodesAtIp hdec (step_eq_next_afterStep s)
  have hexec : exec i { s with ip := s.ip + BitVec.ofNat 16 k } = .next u := hu
  rw [hexec]
  exact (step_eq_next_afterStep s).trans (congrArg Host.Outcome.next ht)

/-- Settles O21: every meaning answers a next state, and the step accounts for it. -/
theorem everyStepAnswersANextState : Obligations.EveryStepAnswersANextState := by
  unfold Obligations.EveryStepAnswersANextState
  exact fun s => ⟨afterStep s, step_eq_next_afterStep s⟩

/-- Settles O28, by the equation of the meaning. -/
theorem unimplementedOpcodeReportsAndStops : Obligations.UnimplementedOpcodeReportsAndStops := by
  unfold Obligations.UnimplementedOpcodeReportsAndStops
  exact exec_unimplementedOpcode

/-- Settles O38: the error zeroes the budget and stops the engine, so the accounting of the byte adds to the total
alone. -/
theorem unimplementedOpcodeStepEffect : Obligations.UnimplementedOpcodeStepEffect := by
  unfold Obligations.UnimplementedOpcodeStepEffect
  intro s hnone
  rw [step_of_not_admitted hnone]
  rfl

/-! ### Bytes placed by the host (log entry 2) -/

@[simp] theorem placeBytes_ip (bytes : List Byte) (a : Word) (s : State) : (placeBytes bytes a s).ip = s.ip := by
  induction bytes generalizing a s with
  | nil => rfl
  | cons b rest ih => rw [placeBytes, ih, storeByte_ip]

@[simp] theorem placeBytes_config (bytes : List Byte) (a : Word) (s : State) :
    (placeBytes bytes a s).config = s.config := by
  induction bytes generalizing a s with
  | nil => rfl
  | cons b rest ih => rw [placeBytes, ih, storeByte_config]

/-- Four bytes stored from an address on lie at four different addresses, wherever these wrap. -/
theorem readByte_placeBytes_four (b₀ b₁ b₂ b₃ : Byte) (a : Word) (s : State) :
    readByte a (placeBytes [b₀, b₁, b₂, b₃] a s) = b₀ ∧ readByte (a + 1) (placeBytes [b₀, b₁, b₂, b₃] a s) = b₁ ∧
    readByte (a + 2) (placeBytes [b₀, b₁, b₂, b₃] a s) = b₂ ∧
    readByte (a + 3) (placeBytes [b₀, b₁, b₂, b₃] a s) = b₃ := by
  have haddr (x y : Word) : a + x = a + y ↔ x = y := BitVec.add_right_inj a
  simp [placeBytes, readByte_storeByte, BitVec.add_assoc, haddr]

/-- The build in which a word is placed admits the first byte as the build that admits every row does. -/
theorem admittedOpcode_configAdmitting (op : Byte) (c : Config) :
    admittedOpcode (configAdmitting op c).movLoadForms op = admittedOpcode true op := by
  by_cases hload : op = 0x8A ∨ op = 0x8B
  · have hloads : (configAdmitting op c).movLoadForms = true := by
      simp only [configAdmitting, Bool.or_eq_true, beq_iff_eq, hload, or_true]
    rw [hloads]
  · obtain ⟨h8A, h8B⟩ := not_or.mp hload
    simp only [admittedOpcode, h8A, h8B, and_false]

/-- The build plays no part in decoding but for the opcode byte. -/
theorem decode_congr {loads loads' : Bool} {op : Byte} (h : admittedOpcode loads op = admittedOpcode loads' op)
    (rest : List Byte) : decode loads (op :: rest) = decode loads' (op :: rest) := by
  simp only [decode, h]

theorem bytesAtIp_withFetchWord (s : State) (nbits w : Nat) :
    bytesAtIp (s.withFetchWord nbits w) = tableBytes nbits w := by
  obtain ⟨h0, h1, h2, h3⟩ := readByte_placeBytes_four (BitVec.ofNat 8 (w % 2 ^ nbits))
    (BitVec.ofNat 8 (w % 2 ^ nbits / 256)) (BitVec.ofNat 8 (w % 2 ^ nbits / 65536))
    (BitVec.ofNat 8 (w % 2 ^ nbits / 16777216)) s.ip
    { s with config := configAdmitting (BitVec.ofNat 8 (w % 2 ^ nbits)) s.config }
  simp only [bytesAtIp, State.withFetchWord, placeBytes_ip, tableBytes, h0, h1, h2, h3]

/-- Settles O23: the bytes placed are the bytes at ip, and the fetch decodes these in a build that admits the opcode as
the table's decoder does. -/
theorem placedWordIsFetchedNext : Obligations.PlacedWordIsFetchedNext := by
  unfold Obligations.PlacedWordIsFetchedNext
  intro s nbits w i h
  have hbytes := bytesAtIp_withFetchWord s nbits w
  have hconfig : (s.withFetchWord nbits w).config = configAdmitting (BitVec.ofNat 8 (w % 2 ^ nbits)) s.config :=
    placeBytes_config _ _ _
  have hfetch := decode_bytesAtIp (s.withFetchWord nbits w)
  rw [hbytes, hconfig, tableBytes, decode_congr (admittedOpcode_configAdmitting _ s.config), ← tableBytes] at hfetch
  rw [decodeTableWord, hfetch] at h
  exact ⟨Option.some.inj h, hbytes⟩

end Sys2Proof.Machine
end

section
/-! SUPPORT. The four MOVs: what each answers, its result and its frame (R120 to R124). -/

namespace Sys2Proof.Machine

open Sys2Proof.Statements

/-- What a MOV leaves as it was, from the state it answers (R124). -/
theorem exec_mov_frame {i : Instr} {s t : State} (hi : ∀ op, i ≠ .unimplementedOpcode op) (h : exec i s = .next t) :
    OutsideUnchanged (destinationOf i s) s t ∧ SystemUnchanged s t ∧ t.ip = s.ip :=
  ⟨exec_outsideUnchanged h, exec_mov_systemUnchanged hi h⟩

theorem readReg8_writeReg8_same (r : Reg8) (b : Byte) (s : State) : readReg8 r (writeReg8 r b s) = b := by
  rw [readReg8_writeReg8, if_pos rfl]

theorem readReg16_writeReg16_same (r : Reg16) (v : Word) (s : State) : readReg16 r (writeReg16 r v s) = v := by
  rw [readReg16_writeReg16, if_pos rfl]

/-- Settles O24: the location written is the register or the byte at the effective address. -/
theorem movRm8R8StoresTheSourceByte : Obligations.MovRm8R8StoresTheSourceByte := by
  unfold Obligations.MovRm8R8StoresTheSourceByte
  intro dst src s
  refine ⟨_, exec_movRm8R8 dst src s, ?_, ?_, exec_mov_frame (fun _ => Instr.noConfusion) (exec_movRm8R8 dst src s)⟩
  · rintro r rfl
    exact readReg8_writeReg8_same r _ s
  · rintro m rfl
    exact readByte_storeByte_same s _ _

/-- Settles O25: the location written is the register, or the two bytes from the effective address on, low byte
first. -/
theorem movRm16R16StoresTheSourceWord : Obligations.MovRm16R16StoresTheSourceWord := by
  unfold Obligations.MovRm16R16StoresTheSourceWord
  intro dst src s
  refine ⟨_, exec_movRm16R16 dst src s, ?_, ?_,
    exec_mov_frame (fun _ => Instr.noConfusion) (exec_movRm16R16 dst src s)⟩
  · rintro r rfl
    exact readReg16_writeReg16_same r _ s
  · rintro m rfl
    exact ⟨readByte_storeWord_low s _ _, readByte_storeWord_high s _ _⟩

/-- Settles O26: the register written holds what its source location held before. -/
theorem movR8Rm8LoadsTheSourceByte : Obligations.MovR8Rm8LoadsTheSourceByte := by
  unfold Obligations.MovR8Rm8LoadsTheSourceByte
  intro dst src s
  refine ⟨_, exec_movR8Rm8 dst src s, ?_, ?_, exec_mov_frame (fun _ => Instr.noConfusion) (exec_movR8Rm8 dst src s)⟩
  · rintro r rfl
    exact readReg8_writeReg8_same dst _ s
  · rintro m rfl
    exact readReg8_writeReg8_same dst _ s

/-- Settles O27: the register written holds the word its source location held before. -/
theorem movR16Rm16LoadsTheSourceWord : Obligations.MovR16Rm16LoadsTheSourceWord := by
  unfold Obligations.MovR16Rm16LoadsTheSourceWord
  intro dst src s
  refine ⟨_, exec_movR16Rm16 dst src s, ?_, ?_,
    exec_mov_frame (fun _ => Instr.noConfusion) (exec_movR16Rm16 dst src s)⟩
  · rintro r rfl
    exact readReg16_writeReg16_same dst _ s
  · rintro m rfl
    exact readReg16_writeReg16_same dst _ s

/-- Settles O30: the accounting after the store touches neither ip nor memory, so the fetch reads the byte or the two
bytes stored. -/
theorem storeIsSeenByTheNextFetch : Obligations.StoreIsSeenByTheNextFetch := by
  unfold Obligations.StoreIsSeenByTheNextFetch
  intro s t m k h
  refine ⟨fun src hdec haddr => ?_, fun src hdec haddr => ?_⟩
  · obtain ⟨u, hu, rfl⟩ := step_next_of_decodesAtIp hdec h
    obtain ⟨v, hv, -, hmem, -⟩ := movRm8R8StoresTheSourceByte (.mem m) src (setIp (s.ip + BitVec.ofNat 16 k) s)
    cases hv.symm.trans hu
    have hbyte := hmem m rfl
    rw [effectiveAddress_setIp, haddr, readReg8_setIp] at hbyte
    exact hbyte
  · obtain ⟨u, hu, rfl⟩ := step_next_of_decodesAtIp hdec h
    obtain ⟨v, hv, -, hmem, -⟩ := movRm16R16StoresTheSourceWord (.mem m) src (setIp (s.ip + BitVec.ofNat 16 k) s)
    cases hv.symm.trans hu
    obtain ⟨hlow, hhigh⟩ := hmem m rfl
    rw [effectiveAddress_setIp, haddr, readReg16_setIp] at hlow hhigh
    exact (congrArg₂ joinBytes hhigh hlow).trans (joinBytes_hi8_lo8 _)

end Sys2Proof.Machine
end

section
/-! SUPPORT. Segment registers as a change that a step ignores, flag updates, host writes and runs (R34, R37, R130,
R156). -/

namespace Sys2Proof.Machine

open Sys2Proof.Statements

/-! ### Segment registers (R34) -/

/-- Replacing the four segment registers. -/
def withSegments (cs ds ss es : Word) (s : State) : State := { s with cs := cs, ds := ds, ss := ss, es := es }

theorem withSegments_ignoredByStep (cs ds ss es : Word) : IgnoredByStep (withSegments cs ds ss es) where
  ip _ := rfl
  config _ := rfl
  readByte _ _ := rfl
  setIp _ _ := rfl
  readReg8 r _ := by cases r <;> rfl
  readReg16 r _ := by cases r <;> rfl
  writeReg8 r _ _ := by cases r <;> rfl
  writeReg16 r _ _ := by cases r <;> rfl
  storeByte _ _ _ := rfl
  raiseError _ _ := rfl
  chargeCycles _ _ := rfl

/-- A step leaves the segment registers as they were: it is the step from the state with its own put in, and that one
ends with these. -/
theorem step_withSegments_self {s t : State} (h : step s = .next t) : t = withSegments s.cs s.ds s.ss s.es t := by
  have hself : step s = .next (withSegments s.cs s.ds s.ss s.es t) :=
    (withSegments_ignoredByStep s.cs s.ds s.ss s.es).step_next h
  exact Host.Outcome.next.inj (h.symm.trans hself)

/-- Settles O32: replacing the segment registers is a change that a step ignores. -/
theorem segmentRegistersAreNeitherReadNorWritten : Obligations.SegmentRegistersAreNeitherReadNorWritten := by
  unfold Obligations.SegmentRegistersAreNeitherReadNorWritten
  intro s t cs ds ss es h
  refine ⟨(withSegments_ignoredByStep cs ds ss es).step_next h, ?_⟩
  rw [step_withSegments_self h]
  exact ⟨rfl, rfl, rfl, rfl⟩

/-! ### Flag updates (R130) -/

/-- Settles O34, by induction on the updates: each writes flags only, and there only its flag's bit. -/
theorem hooksNeverWriteReservedBits : Obligations.HooksNeverWriteReservedBits := by
  unfold Obligations.HooksNeverWriteReservedBits
  intro ups s
  induction ups generalizing s with
  | nil => exact ⟨rfl, rfl⟩
  | cons u rest ih =>
    obtain ⟨hreserved, hrest⟩ := ih (setFlag u.1 u.2 s)
    have hkept := congrArg (withFlags s.flags) hrest
    refine ⟨?_, hkept⟩
    rw [applyFlagUpdates, hreserved, setFlag_flags, putBit_flagPos_and_not_flagsMask]

/-! ### Runs without an error (R156) -/

/-- A step that ends without an error reported began without one, at an admitted opcode. -/
theorem step_noError {s t : State} (h : step s = .next t) (ht : t.NoError) :
    s.NoError ∧ (admittedOpcode s.config.movLoadForms (readByte s.ip s)).isSome = true := by
  cases ho : admittedOpcode s.config.movLoadForms (readByte s.ip s) with
  | none => exact nomatch (step_error_of_not_admitted ho h).symm.trans ht
  | some o => exact ⟨(step_error_of_admitted (by rw [ho]; rfl) h).symm.trans ht, rfl⟩

theorem Runs.noError {k : Nat} {s t : State} (h : Runs k s t) (ht : t.NoError) : s.NoError := by
  induction k generalizing s with
  | zero => cases h; exact ht
  | succ k ih =>
    obtain ⟨u, hstep, hrun⟩ := h
    exact (step_noError hstep (ih hrun)).1

/-- Settles O40: the run from the state on has no error at its end, so none at its start, and its first step none. -/
theorem runWithoutErrorHadNoneOnTheWay : Obligations.RunWithoutErrorHadNoneOnTheWay := by
  unfold Obligations.RunWithoutErrorHadNoneOnTheWay
  intro j k s u t _ hrun ht
  refine ⟨hrun.noError ht, fun hk => ?_⟩
  cases k with
  | zero => exact absurd hk (Nat.lt_irrefl 0)
  | succ k =>
    obtain ⟨v, hstep, hrest⟩ := hrun
    exact (step_noError hstep (hrest.noError ht)).2

end Sys2Proof.Machine
end

section
/-! SUPPORT. What the host's accessors read after a write of one register (R35 to R37). -/

namespace Sys2Proof.Machine

/-! ### Segment registers beside the others (R34) -/

theorem readSeg_writeSeg (r x : SegSel) (v : Word) (s : State) :
    readSeg x (writeSeg r v s) = if x = r then v else readSeg x s := by
  cases r <;> cases x <;> rfl

@[simp] theorem readSeg_writeReg8 (x : SegSel) (r : Reg8) (b : Byte) (s : State) :
    readSeg x (writeReg8 r b s) = readSeg x s := by
  cases x <;> simp [readSeg]

@[simp] theorem readSeg_writeReg16 (x : SegSel) (r : Reg16) (v : Word) (s : State) :
    readSeg x (writeReg16 r v s) = readSeg x s := by
  cases x <;> simp [readSeg]

@[simp] theorem readSeg_setIp (x : SegSel) (v : Word) (s : State) : readSeg x (setIp v s) = readSeg x s := by
  cases x <;> rfl

@[simp] theorem readReg16_writeSeg (x : Reg16) (r : SegSel) (v : Word) (s : State) :
    readReg16 x (writeSeg r v s) = readReg16 x s := by
  cases x <;> simp [readReg16]

@[simp] theorem readByte_writeSeg (a : Word) (r : SegSel) (v : Word) (s : State) :
    readByte a (writeSeg r v s) = readByte a s := by
  rw [readByte, writeSeg_mem, readByte]

/-! ### The accessors after a write -/

/-- Every byte selector after a byte-register write. -/
theorem getByte_writeReg8 (r : Reg8) (b : Byte) (x : ByteSel) (s : State) :
    getByte (.byte x) (writeReg8 r b s) = if x = .reg r then .ok b else getByte (.byte x) s := by
  cases x with
  | reg y =>
    simp only [getByte, readReg8_writeReg8, ByteSel.reg.injEq]
    split <;> rfl
  | flagsL => simp [getByte, readFlagsL]
  | flagsH => simp [getByte, readFlagsH]

/-- Every selector after a word-register write. -/
theorem getWord_writeReg16 (r : Reg16) (v : Word) (x : Selector) (s : State) :
    getWord x (writeReg16 r v s) = if x = .word (.reg r) then .ok v else getWord x s := by
  match x with
  | .word (.reg y) =>
    simp only [getWord, readReg16_writeReg16, Selector.word.injEq, WordSel.reg.injEq]
    split <;> rfl
  | .word .ip => simp [getWord]
  | .seg y => simp [getWord]
  | .byte y => simp [getWord]

/-- Every selector after ip is written. -/
theorem getWord_setIp (v : Word) (x : Selector) (s : State) :
    getWord x (setIp v s) = if x = .word .ip then .ok v else getWord x s := by
  match x with
  | .word (.reg y) => simp [getWord]
  | .word .ip => simp [getWord]
  | .seg y => simp [getWord]
  | .byte y => simp [getWord]

/-- Every selector after a segment-register write. -/
theorem getWord_writeSeg (r : SegSel) (v : Word) (x : Selector) (s : State) :
    getWord x (writeSeg r v s) = if x = .seg r then .ok v else getWord x s := by
  match x with
  | .word (.reg y) => simp [getWord]
  | .word .ip => simp [getWord]
  | .seg y =>
    simp only [getWord, readSeg_writeSeg, Selector.seg.injEq]
    split <;> rfl
  | .byte y => simp [getWord]

/-- A word write that succeeds is read back by its selector, and by no other. -/
theorem getWord_of_setWord {sel : Selector} {v : Word} {s t : State} (h : setWord sel v s = .ok t) (x : Selector) :
    getWord x t = if x = sel then .ok v else getWord x s := by
  match sel with
  | .word (.reg r) => cases h; exact getWord_writeReg16 r v x s
  | .word .ip => cases h; exact getWord_setIp v x s
  | .seg r => cases h; exact getWord_writeSeg r v x s
  | .byte _ => cases h

theorem setWord_memoryUnchanged {sel : Selector} {v : Word} {s t : State} (h : setWord sel v s = .ok t) :
    MemoryUnchanged s t := by
  intro a
  match sel with
  | .word (.reg r) => cases h; exact readByte_writeReg16 a r v s
  | .word .ip => cases h; exact readByte_setIp a v s
  | .seg r => cases h; exact readByte_writeSeg a r v s
  | .byte _ => cases h

/-- Settles O42: one rule for each accessor gives what every selector reads after a write. -/
theorem hostWritesReadBack : Obligations.HostWritesReadBack := by
  unfold Obligations.HostWritesReadBack
  refine ⟨fun s t r b h => ?_, fun s t sel v h => ⟨?_, fun x hx => ?_, setWord_memoryUnchanged h⟩⟩
  · cases h
    refine ⟨?_, fun x hx => ?_, fun x => ?_, ?_⟩
    · rw [getByte_writeReg8, if_pos rfl]
    · rw [getByte_writeReg8, if_neg hx]
    · rw [getWord, readSeg_writeReg8, getWord]
    · rw [getWord, writeReg8_ip, getWord]
  · rw [getWord_of_setWord h, if_pos rfl]
  · rw [getWord_of_setWord h, if_neg hx]

end Sys2Proof.Machine
end

section
/-! SUPPORT. `execute(n)`: what it spends, and cutting it at an instruction boundary (R104 to R106, R114). -/

namespace Sys2Proof.Machine

open Sys2Proof.Statements

/-! ### What the loop spends -/

/-- An instruction takes four bytes at most (R71). -/
theorem cyclesOf_le_four (s : State) : cyclesOf s ≤ 4 := by
  cases ho : admittedOpcode s.config.movLoadForms (readByte s.ip s) with
  | none => rw [cyclesOf_of_not_admitted ho]; decide
  | some o => rw [cyclesOf_of_admitted (by rw [ho]; rfl)]; exact (lengthByModrm_bounds _).2

/-- A step on an opcode that is not admitted spends one unit, zeroes the budget and reports the error (R106, R151). -/
theorem step_engine_of_not_admitted {s t : State}
    (hnone : admittedOpcode s.config.movLoadForms (readByte s.ip s) = none) (h : step s = .next t) :
    t.budget = 0 ∧ t.report = { total := s.report.total + 1,
                                error := some (.unimplementedOpcode (readByte s.ip s) s.ip) } := by
  cases h.symm.trans (unimplementedOpcodeStepEffect s hnone)
  exact ⟨rfl, rfl⟩

/-- What a report says of a call that began with `start` units spent and `budget` to spend: without an error the budget
is met and overrun by less than an instruction, with one it is not overrun. -/
structure AccountsFor (start budget : Nat) (r : Report) : Prop where
  completed : r.error = none →
    start + budget ≤ r.total ∧ r.total ≤ start + budget + 3 ∧ (budget = 0 → r.total = start)
  failed : ∀ e, r.error = some e →
    start + 1 ≤ r.total ∧ r.total ≤ start + budget ∧ ∃ op addr, e = .unimplementedOpcode op addr

theorem AccountsFor.of_spent {r : Report} (hclear : r.error = none) : AccountsFor r.total 0 r :=
  ⟨fun _ => ⟨Nat.le_refl _, Nat.le_add_right _ 3, fun _ => rfl⟩, fun _ he => nomatch hclear.symm.trans he⟩

/-- Only the last instruction may overrun: one of `c` cycles before it leaves the budget less `c`. -/
theorem AccountsFor.of_rest {start budget c : Nat} {r : Report} (hbudget : 0 < budget) (hc : c ≤ 4)
    (h : AccountsFor (start + c) (budget - c) r) : AccountsFor start budget r := by
  refine ⟨fun hnone => ?_, fun e he => ?_⟩
  · obtain ⟨hmin, hmax, hspent⟩ := h.completed hnone
    omega
  · obtain ⟨hmin, hmax, hop⟩ := h.failed e he
    exact ⟨by omega, by omega, hop⟩

/-- The loop accounts for its budget, by the opcode byte of each step. -/
theorem runLoop_accountsFor {fuel : Nat} {s : State} (hfuel : s.budget ≤ fuel) (hclear : s.report.error = none) :
    AccountsFor s.report.total s.budget (runLoop fuel s).report := by
  induction fuel generalizing s with
  | zero => rw [Nat.le_zero.mp hfuel]; exact .of_spent hclear
  | succ fuel ih =>
    obtain hspent | hbudget := Nat.eq_zero_or_pos s.budget
    · rw [runLoop_of_spent hspent, hspent]
      exact .of_spent hclear
    · have hstep := step_eq_next_afterStep s
      rw [runLoop_of_budget hbudget]
      cases ho : admittedOpcode s.config.movLoadForms (readByte s.ip s) with
      | none =>
        obtain ⟨hspent, hreport⟩ := step_engine_of_not_admitted ho hstep
        rw [runLoop_of_spent hspent, hreport]
        exact ⟨fun hnone => absurd hnone (Option.some_ne_none _), fun e he =>
          ⟨Nat.le_refl _, Nat.add_le_add_left hbudget _, _, _, (Option.some.inj he).symm⟩⟩
      | some o =>
        have hadm : (admittedOpcode s.config.movLoadForms (readByte s.ip s)).isSome = true := by rw [ho]; rfl
        obtain ⟨hleft, -⟩ := step_engine_of_admitted hadm hstep
        have hreport := step_report_of_admitted hadm hstep
        have hmin := cyclesOf_pos s
        have hrest := ih (s := afterStep s) (by omega) (by rw [hreport]; exact hclear)
        rw [hreport, hleft] at hrest
        exact hrest.of_rest hbudget (cyclesOf_le_four s)

theorem hostExecute_accountsFor (n : Nat) (s : State) : AccountsFor 0 n (hostExecute n s).report :=
  runLoop_accountsFor (s := beginExecute n s) (Nat.le_refl n) rfl

theorem executeReply_eq_ok {t : State} {total : Nat} (h : executeReply t = .ok total) :
    t.report.error = none ∧ t.report.total = total := by
  cases he : t.report.error with
  | none => simpa [executeReply, he] using h
  | some _ => simp [executeReply, he] at h

theorem executeReply_eq_runError {t : State} {e : Fault} {total : Nat} (h : executeReply t = .runError e total) :
    t.report.error = some e ∧ t.report.total = total := by
  cases he : t.report.error with
  | none => simp [executeReply, he] at h
  | some _ => simpa [executeReply, he] using h

/-- Settles O46: the reply is the report of the loop, which accounts for a budget of `n`. -/
theorem executeAccountsForItsCycles : Obligations.ExecuteAccountsForItsCycles := by
  unfold Obligations.ExecuteAccountsForItsCycles
  intro n s
  have haccounts := hostExecute_accountsFor n s
  refine ⟨fun total h => ?_, fun e total h => ?_⟩
  · obtain ⟨hnone, rfl⟩ := executeReply_eq_ok h
    simpa only [Nat.zero_add] using haccounts.completed hnone
  · obtain ⟨hsome, rfl⟩ := executeReply_eq_runError h
    simpa only [Nat.zero_add] using haccounts.failed e hsome

/-! ### A larger budget and a larger total (R105, R114) -/

/-- More budget, with the engine Running exactly while there is any (R39). -/
def addBudget (m : Nat) (s : State) : State :=
  withEngine (s.budget + m) (if s.budget + m = 0 then .idle else .running) s.report s

/-- A report that begins with `n` units spent already. -/
def addTotal (n : Nat) (s : State) : State :=
  { s with report := { total := n + s.report.total, error := s.report.error } }

/-- On an admitted opcode the step with another budget is the step, and the accounting that of the other budget. -/
theorem step_withEngine_of_admitted {s t : State}
    (hadm : (admittedOpcode s.config.movLoadForms (readByte s.ip s)).isSome = true) (h : step s = .next t)
    (n : Nat) (m : Mode) (r : Report) :
    step (withEngine n m r s) = .next
      (withEngine (n - cyclesOf s) (if m = .running ∧ 0 < n - cyclesOf s then .running else .idle)
        { total := r.total + cyclesOf s, error := r.error } t) := by
  obtain ⟨n', m', r', hstep⟩ := step_withEngine h n m r
  obtain ⟨hbudget, hmode⟩ := step_engine_of_admitted (s := withEngine n m r s) hadm hstep
  have hreport := step_report_of_admitted (s := withEngine n m r s) hadm hstep
  obtain rfl : n' = _ := hbudget
  obtain rfl : m' = _ := hmode
  obtain rfl : r' = _ := hreport
  exact hstep

/-- Where a step spends no more than its budget, more budget is there after it. -/
theorem afterStep_addBudget {s : State} (m : Nat)
    (hadm : (admittedOpcode s.config.movLoadForms (readByte s.ip s)).isSome = true) (hle : cyclesOf s ≤ s.budget) :
    afterStep (addBudget m s) = addBudget m (afterStep s) := by
  have hstep := step_eq_next_afterStep s
  obtain ⟨hbudget, -⟩ := step_engine_of_admitted hadm hstep
  have hreport := step_report_of_admitted hadm hstep
  have hpos := cyclesOf_pos s
  have hmore := step_withEngine_of_admitted hadm hstep (s.budget + m) .running s.report
  have hrunning : addBudget m s = withEngine (s.budget + m) .running s.report s := by
    rw [addBudget, if_neg (by omega)]
  have hleft : s.budget + m - cyclesOf s = (afterStep s).budget + m := by omega
  rw [← hrunning, step_eq_next_afterStep, hleft, ← hreport] at hmore
  rw [Host.Outcome.next.inj hmore, addBudget]
  obtain hspent | hpos := Nat.eq_zero_or_pos ((afterStep s).budget + m)
  · rw [if_neg fun hrun => hrun.2.ne' hspent, if_pos hspent]
  · rw [if_pos ⟨rfl, hpos⟩, if_neg hpos.ne']

theorem addTotal_ignoredByStep (n : Nat) : IgnoredByStep (addTotal n) where
  ip _ := rfl
  config _ := rfl
  readByte _ _ := rfl
  setIp _ _ := rfl
  readReg8 r _ := by cases r <;> rfl
  readReg16 r _ := by cases r <;> rfl
  writeReg8 r _ _ := by cases r <;> rfl
  writeReg16 r _ _ := by cases r <;> rfl
  storeByte _ _ _ := rfl
  raiseError _ _ := rfl
  chargeCycles k s := by simp only [chargeCycles, addTotal, Nat.add_assoc]; rfl

theorem runLoop_addTotal (n fuel : Nat) (s : State) : runLoop fuel (addTotal n s) = addTotal n (runLoop fuel s) := by
  induction fuel generalizing s with
  | zero => rfl
  | succ fuel ih =>
    obtain hspent | hbudget := Nat.eq_zero_or_pos s.budget
    · rw [runLoop_of_spent hspent, runLoop_of_spent (s := addTotal n s) hspent]
    · have hstep : afterStep (addTotal n s) = addTotal n (afterStep s) :=
        Host.Outcome.next.inj ((step_eq_next_afterStep _).symm.trans
          ((addTotal_ignoredByStep n).step_next (step_eq_next_afterStep s)))
      rw [runLoop_of_budget hbudget, runLoop_of_budget (s := addTotal n s) hbudget, hstep, ih]

/-! ### Cutting a run (R114) -/

/-- Fuel beyond the budget makes no difference (R111). -/
theorem runLoop_add_of_budget_le {fuel : Nat} {s : State} (hfuel : s.budget ≤ fuel)
    (hidle : s.budget = 0 → s.mode = .idle) (extra : Nat) : runLoop (extra + fuel) s = runLoop fuel s := by
  obtain ⟨hspent, -⟩ := runLoop_spends_budget hfuel hidle
  rw [Nat.add_comm, runLoop_add, runLoop_of_spent hspent]

/-- A state without budget has `m` units after `m` are added. -/
theorem runLoop_addBudget_of_spent {s : State} (hspent : s.budget = 0) (m extra : Nat) :
    runLoop (extra + m) (addBudget m s) = runLoop m (addBudget m s) :=
  runLoop_add_of_budget_le (by rw [addBudget, withEngine, hspent, Nat.zero_add]) (fun h => if_pos h) extra

/-- The first step of a loop that spends its budget exactly and without an error raises none and does not overrun. -/
theorem first_step_of_exact {fuel : Nat} {s : State}
    (hexact : (runLoop fuel (afterStep s)).report = { total := s.report.total + s.budget, error := none }) :
    (admittedOpcode s.config.movLoadForms (readByte s.ip s)).isSome = true ∧ cyclesOf s ≤ s.budget := by
  have hstep := step_eq_next_afterStep s
  cases ho : admittedOpcode s.config.movLoadForms (readByte s.ip s) with
  | none =>
    obtain ⟨hspent, hreport⟩ := step_engine_of_not_admitted ho hstep
    rw [runLoop_of_spent hspent, hreport] at hexact
    exact nomatch congrArg Report.error hexact
  | some o =>
    have hadm : (admittedOpcode s.config.movLoadForms (readByte s.ip s)).isSome = true := by rw [ho]; rfl
    obtain ⟨hleft, -⟩ := step_engine_of_admitted hadm hstep
    refine ⟨rfl, Nat.le_of_not_lt fun hover => ?_⟩
    rw [runLoop_of_spent (by omega), step_report_of_admitted hadm hstep] at hexact
    have htotal : s.report.total + cyclesOf s = s.report.total + s.budget := congrArg Report.total hexact
    omega

/-- A loop that spends its budget exactly and without an error leaves, with `m` more units, these `m` to a second
loop. -/
theorem runLoop_addBudget {fuel : Nat} {s : State} (m : Nat) (hfuel : s.budget ≤ fuel)
    (hexact : (runLoop fuel s).report = { total := s.report.total + s.budget, error := none }) :
    runLoop (fuel + m) (addBudget m s) = runLoop m (addBudget m (runLoop fuel s)) := by
  induction fuel generalizing s with
  | zero => exact runLoop_addBudget_of_spent (Nat.le_zero.mp hfuel) m 0
  | succ fuel ih =>
    obtain hspent | hbudget := Nat.eq_zero_or_pos s.budget
    · rw [runLoop_of_spent hspent]
      exact runLoop_addBudget_of_spent hspent m (fuel + 1)
    · rw [runLoop_of_budget hbudget] at hexact ⊢
      obtain ⟨hadm, hle⟩ := first_step_of_exact hexact
      have hstep := step_eq_next_afterStep s
      obtain ⟨hleft, -⟩ := step_engine_of_admitted hadm hstep
      have hreport := step_report_of_admitted hadm hstep
      have hpos := cyclesOf_pos s
      have hsum : s.report.total + s.budget = (afterStep s).report.total + (afterStep s).budget := by
        rw [hreport, hleft, Nat.add_assoc, Nat.add_sub_cancel' hle]
      rw [Nat.succ_add, runLoop_of_budget (s := addBudget m s) (Nat.add_pos_left hbudget m),
        afterStep_addBudget m hadm hle]
      exact ih (by omega) (hsum ▸ hexact)

/-- After a call that spent `n` units exactly, more budget is a new call whose total begins with `n`. -/
theorem addBudget_eq_addTotal_beginExecute {n : Nat} {s : State} (hspent : s.budget = 0)
    (hexact : s.report = { total := n, error := none }) (m : Nat) :
    addBudget m s = addTotal n (beginExecute m s) := by
  simp [addBudget, withEngine, addTotal, beginExecute, hspent, hexact]

/-- Settles O47: the budget of `n + m` is `m` more than that of `n`, and the loop leaves these `m` to a call whose total
begins with `n`. -/
theorem executeSplitsAtInstructionBoundaries : Obligations.ExecuteSplitsAtInstructionBoundaries := by
  unfold Obligations.ExecuteSplitsAtInstructionBoundaries
  intro n m s hexact
  obtain ⟨hspent, -⟩ := hostExecute_spends_budget n s
  have hloop : (runLoop n (beginExecute n s)).report = { total := 0 + n, error := none } := by
    rw [Nat.zero_add]
    exact hexact
  calc hostExecute (n + m) s
      = runLoop m (addBudget m (hostExecute n s)) := runLoop_addBudget (s := beginExecute n s) m (Nat.le_refl n) hloop
    _ = runLoop m (addTotal n (beginExecute m (hostExecute n s))) := by
      rw [addBudget_eq_addTotal_beginExecute hspent hexact]
    _ = addTotal n (hostExecute m (hostExecute n s)) := runLoop_addTotal n m _

end Sys2Proof.Machine
end

section
/-! SUPPORT. The reference flags of an addition and of a subtraction, at every width above four bits (R135, R136). -/

namespace Sys2Proof.Machine

section
variable {n : Nat} (a b : BitVec n) (c : Bool)

/-! ### Addition (R135) -/

theorem carryIn_eq_toNat : carryIn c = c.toNat := by cases c <;> rfl

theorem carryIn_le_one : carryIn c ≤ 1 := by cases c <;> decide

theorem ofNat_carryIn : BitVec.ofNat n (carryIn c) = (BitVec.ofBool c).setWidth n := by
  apply BitVec.eq_of_toNat_eq
  rw [BitVec.toNat_ofNat, BitVec.toNat_setWidth, BitVec.toNat_ofBool, carryIn_eq_toNat]

theorem addCarry_iff : addCarry a b c = true ↔ 2 ^ n ≤ a.toNat + b.toNat + carryIn c := decide_eq_true_iff

/-- The result and its carry are the unbounded sum. -/
theorem addResult_toNat_add_carry :
    (addResult a b c).toNat + (if addCarry a b c then 2 ^ n else 0) = a.toNat + b.toNat + carryIn c := by
  have ha := a.isLt
  have hb := b.isLt
  have hc := carryIn_le_one c
  have hr : (addResult a b c).toNat = (a.toNat + b.toNat + carryIn c) % 2 ^ n := by
    simp [addResult, BitVec.toNat_add]
  by_cases h : 2 ^ n ≤ a.toNat + b.toNat + carryIn c
  · rw [if_pos ((addCarry_iff a b c).mpr h), hr, Nat.mod_eq_sub_mod h, Nat.mod_eq_of_lt (by omega),
      Nat.sub_add_cancel h]
  · rw [if_neg (mt (addCarry_iff a b c).mp h), hr, Nat.mod_eq_of_lt (by omega), Nat.add_zero]

/-- Carry is unsigned overflow. -/
theorem addCarry_iff_toNat_ne :
    addCarry a b c = true ↔ (addResult a b c).toNat ≠ a.toNat + b.toNat + carryIn c := by
  have hsum := addResult_toNat_add_carry a b c
  have hpos := Nat.two_pow_pos n
  cases h : addCarry a b c
  · rw [h, if_neg Bool.false_ne_true] at hsum
    exact iff_of_false Bool.false_ne_true (not_not.mpr hsum)
  · rw [h, if_pos rfl] at hsum
    exact iff_of_true rfl (by omega)

/-- The sign bit and the signed value of a word, where `half` is half of its range. -/
theorem signedValue {half : Nat} (hhalf : 2 ^ n = 2 * half) (x : BitVec n) :
    (x.msb = true ↔ half ≤ x.toNat) ∧ x.toNat < 2 * half ∧
    (x.toNat < half → x.toInt = x.toNat) ∧ (half ≤ x.toNat → x.toInt = x.toNat - 2 * half) := by
  have hlt := x.isLt
  have hmsb := BitVec.msb_eq_false_iff_two_mul_lt (x := x)
  have hint := BitVec.toInt_eq_toNat_cond x
  rw [hhalf] at hlt hmsb hint
  refine ⟨?_, hlt, fun h => ?_, fun h => ?_⟩
  · rw [← Bool.not_eq_false, hmsb]
    omega
  · rw [hint, if_pos (by omega)]
  · rw [hint, if_neg (by omega)]
    push_cast
    rfl

/-- Overflow is signed overflow: operands of one sign and a result of the other. -/
theorem addOverflow_iff_toInt_ne (hn : 0 < n) :
    addOverflow a b c = true ↔ (addResult a b c).toInt ≠ a.toInt + b.toInt + carryIn c := by
  have hhalf : 2 ^ n = 2 * 2 ^ (n - 1) := by rw [← Nat.pow_succ', Nat.succ_eq_add_one, Nat.sub_add_cancel hn]
  have hsum := addResult_toNat_add_carry a b c
  rw [hhalf] at hsum
  generalize 2 ^ (n - 1) = half at hhalf hsum
  have hc := carryIn_le_one c
  obtain ⟨ha, _, _, _⟩ := signedValue hhalf a
  obtain ⟨hb, _, _, _⟩ := signedValue hhalf b
  obtain ⟨hr, _, _, _⟩ := signedValue hhalf (addResult a b c)
  rw [addOverflow, Bool.and_eq_true, beq_iff_eq, bne_iff_ne, Ne, @Bool.eq_iff_iff a.msb b.msb,
    @Bool.eq_iff_iff (addResult a b c).msb a.msb, ha, hb, hr]
  split at hsum <;> omega

/-- Auxiliary carry is the carry into bit 4. -/
theorem addAuxCarry_iff (hn : 4 < n) :
    addAuxCarry a b c = true ↔ 16 ≤ a.toNat % 16 + b.toNat % 16 + carryIn c := by
  have hbit : addAuxCarry a b c = BitVec.carry 4 a b c := by
    rw [addAuxCarry, BitVec.getLsbD_xor, BitVec.getLsbD_xor, addResult, ofNat_carryIn, BitVec.getLsbD_add_add_bool hn]
    cases a.getLsbD 4 <;> cases b.getLsbD 4 <;> simp
  rw [hbit, BitVec.carry, decide_eq_true_iff, carryIn_eq_toNat]

/-! ### Subtraction (R136): its flags are those of the addition that undoes it -/

theorem addResult_subResult : addResult (subResult a b c) b c = a := by
  rw [addResult, subResult, add_right_comm, BitVec.sub_add_cancel, BitVec.sub_add_cancel]

/-- The difference, what was taken and the borrow. -/
theorem toNat_add_borrow :
    a.toNat + (if addCarry (subResult a b c) b c then 2 ^ n else 0) =
      (subResult a b c).toNat + b.toNat + carryIn c := by
  rw [← addResult_toNat_add_carry, addResult_subResult]

theorem subBorrow_eq_addCarry : subBorrow a b c = addCarry (subResult a b c) b c := by
  have hsum := toNat_add_borrow a b c
  have hr := (subResult a b c).isLt
  rw [Bool.eq_iff_iff, subBorrow, decide_eq_true_iff]
  split at hsum
  · next h => exact iff_of_true (by omega) h
  · next h => exact iff_of_false (by omega) h

theorem subOverflow_eq_addOverflow : subOverflow a b c = addOverflow (subResult a b c) b c := by
  rw [subOverflow, addOverflow, addResult_subResult]
  cases a.msb <;> cases b.msb <;> cases (subResult a b c).msb <;> rfl

theorem subAuxCarry_eq_addAuxCarry : subAuxCarry a b c = addAuxCarry (subResult a b c) b c := by
  have hxor : a ^^^ b ^^^ subResult a b c = subResult a b c ^^^ b ^^^ a := by ac_rfl
  rw [subAuxCarry, addAuxCarry, addResult_subResult, hxor]

/-- Borrow is unsigned overflow. -/
theorem subBorrow_iff_toNat_ne :
    subBorrow a b c = true ↔ ((subResult a b c).toNat : Int) ≠ a.toNat - b.toNat - carryIn c := by
  rw [subBorrow_eq_addCarry, addCarry_iff_toNat_ne, addResult_subResult]
  omega

/-- Overflow is signed overflow. -/
theorem subOverflow_iff_toInt_ne (hn : 0 < n) :
    subOverflow a b c = true ↔ (subResult a b c).toInt ≠ a.toInt - b.toInt - carryIn c := by
  rw [subOverflow_eq_addOverflow, addOverflow_iff_toInt_ne _ _ _ hn, addResult_subResult]
  omega

/-- Auxiliary carry is the borrow from bit 4. -/
theorem subAuxCarry_iff (hn : 4 < n) :
    subAuxCarry a b c = true ↔ a.toNat % 16 < b.toNat % 16 + carryIn c := by
  have hsum := toNat_add_borrow a b c
  obtain ⟨k, hk⟩ : 16 ∣ 2 ^ n := Nat.pow_dvd_pow 2 hn.le
  have hc := carryIn_le_one c
  rw [subAuxCarry_eq_addAuxCarry, addAuxCarry_iff _ _ _ hn]
  rw [hk] at hsum
  split at hsum <;> omega

end

/-- Settles O36: at every width the flags are those of the sum and its carry. -/
theorem additionFlagsAreArithmetic : Obligations.AdditionFlagsAreArithmetic := by
  unfold Obligations.AdditionFlagsAreArithmetic
  exact ⟨fun a b c => ⟨addCarry_iff_toNat_ne a b c, addOverflow_iff_toInt_ne a b c (by decide),
      addAuxCarry_iff a b c (by decide)⟩,
    fun a b c => ⟨addCarry_iff_toNat_ne a b c, addOverflow_iff_toInt_ne a b c (by decide),
      addAuxCarry_iff a b c (by decide)⟩⟩

/-- Settles O37: at every width the flags are those of the addition that undoes the subtraction. -/
theorem subtractionFlagsAreArithmetic : Obligations.SubtractionFlagsAreArithmetic := by
  unfold Obligations.SubtractionFlagsAreArithmetic
  exact ⟨fun a b c => ⟨subBorrow_iff_toNat_ne a b c, subOverflow_iff_toInt_ne a b c (by decide),
      subAuxCarry_iff a b c (by decide)⟩,
    fun a b c => ⟨subBorrow_iff_toNat_ne a b c, subOverflow_iff_toInt_ne a b c (by decide),
      subAuxCarry_iff a b c (by decide)⟩⟩

end Sys2Proof.Machine
end
